-- ==== Sys2Proof/Word.lean ====
section
/-! DEFINITION. The plain words of EPD-CORE: the byte and the two wider register widths.

`00_scope.md` R10: a byte is 8 bits, bit 7 is its most significant bit.  The other widths are those
of `10_state.md` R21 (COUNTER, FUE 32 bits; TEMP, OTP_SKIP, SUB 16 bits). -/

namespace Sys2Proof

/-- One byte (R10). -/
abbrev Byte := BitVec 8

/-- The width of TEMP, OTP_SKIP, SUB and of a delay in milliseconds (R9, R21, R94). -/
abbrev Half := BitVec 16

/-- The width of COUNTER, FUE and FULL_UPDATE_EVERY (R9, R21, R29). -/
abbrev Word := BitVec 32

/-- A frame memory: one byte address space of `20_memory.md` R60 (LF, PF or HF), as address and byte
pairs.  The canonical form it is kept in is `Memory.wf` (Machine/Memory.lean). -/
abbrev Memory := List Host.Cell

end Sys2Proof
end

