-- ==== Sys2Proof/Syntax.lean ====
section
/-! DEFINITION. The instruction set of EPD-CORE as one inductive: a constructor per row of
`spec/opcode_table.json`.

The block fetches no instructions (`00_scope.md` R2).  Its instruction set has three layers: three
host operations (R90), nine micro-operations and the ERR event (R94), eleven panel commands (R100). -/

namespace Sys2Proof

/-- The level of the panel reset line: 0 is `low`, 1 is `high` (R94, R186). -/
inductive Level where
  | low
  | high
deriving DecidableEq, Repr, Inhabited

/-- A bus device, the operand of ATTACH and DETACH: 0 is CAL, 1 is WR (R94). -/
inductive Device where
  | cal
  | wr
deriving DecidableEq, Repr, Inhabited

/-- The source operand of BULK: 0 is PF, 1 is HF, 2 is ZF; code 3 is reserved and is no value here
(R94). -/
inductive FrameSrc where
  | pf
  | hf
  | zf
deriving DecidableEq, Repr, Inhabited

/-- The four error kinds of `60_exceptions.md` R270, in the order of their ERR codes 0 to 3. -/
inductive ErrKind where
  | bus
  | busyTimeout
  | calibration
  | configuration
deriving DecidableEq, Repr, Inhabited

/-- One constructor per row of the opcode table. -/
inductive Instr where
  -- host operations (R90)
  | setup
  | update
  | forceFull
  -- micro-operations (R94)
  | cmd (a : Byte)
  | dat (b : Byte)
  | bulk (src : FrameSrc)
  | rd
  | bwait
  | delay (t : Half)
  | rstset (l : Level)
  | attach (d : Device)
  | detach (d : Device)
  -- the ERR event (R94, R271)
  | err (k : ErrKind)
  -- panel commands (R100)
  | tset
  | tsetEn
  | psr
  | border
  | vcom
  | dtm1
  | dtm2
  | pon
  | drf
  | pof
  | otpRead
deriving DecidableEq, Repr, Inhabited

namespace Instr

/-- Layer 1: the three host operations (R90). -/
def isHostOp : Instr → Bool
  | setup | update | forceFull => true
  | cmd _ | dat _ | bulk _ | rd | bwait | delay _ | rstset _ | attach _ | detach _ | err _
  | tset | tsetEn | psr | border | vcom | dtm1 | dtm2 | pon | drf | pof | otpRead => false

/-- Layer 2: the nine micro-operations (R94). -/
def isMicroOp : Instr → Bool
  | cmd _ | dat _ | bulk _ | rd | bwait | delay _ | rstset _ | attach _ | detach _ => true
  | setup | update | forceFull | err _
  | tset | tsetEn | psr | border | vcom | dtm1 | dtm2 | pon | drf | pof | otpRead => false

/-- The tenth event kind, which no micro-operation produces by itself (R94). -/
def isErrEvent : Instr → Bool
  | err _ => true
  | setup | update | forceFull
  | cmd _ | dat _ | bulk _ | rd | bwait | delay _ | rstset _ | attach _ | detach _
  | tset | tsetEn | psr | border | vcom | dtm1 | dtm2 | pon | drf | pof | otpRead => false

/-- Layer 3: the eleven panel commands (R100). -/
def isPanelCommand : Instr → Bool
  | tset | tsetEn | psr | border | vcom | dtm1 | dtm2 | pon | drf | pof | otpRead => true
  | setup | update | forceFull
  | cmd _ | dat _ | bulk _ | rd | bwait | delay _ | rstset _ | attach _ | detach _ | err _ => false

end Instr

/-- A micro-operation as a value of its own, one constructor per kind 0 to 8 of R94: what a list of
micro-operations such as PRE_CONFIG_HOOK holds (R8). -/
inductive MicroOp where
  | cmd (a : Byte)
  | dat (b : Byte)
  | bulk (src : FrameSrc)
  | rd
  | bwait
  | delay (t : Half)
  | rstset (l : Level)
  | attach (d : Device)
  | detach (d : Device)
deriving DecidableEq, Repr, Inhabited

/-- The instruction a micro-operation is. -/
def MicroOp.instr : MicroOp → Instr
  | .cmd a => .cmd a
  | .dat b => .dat b
  | .bulk src => .bulk src
  | .rd => .rd
  | .bwait => .bwait
  | .delay t => .delay t
  | .rstset l => .rstset l
  | .attach d => .attach d
  | .detach d => .detach d

/-- The eleven panel commands in the order of the table of R100. -/
def panelCommands : List Instr :=
  [.tset, .tsetEn, .psr, .border, .vcom, .dtm1, .dtm2, .pon, .drf, .pof, .otpRead]

end Sys2Proof
end

