-- ==== Sys2Proof/Config.lean ====
section
/-! DEFINITION. The parameters of the block (`00_scope.md` R6 to R8) and the free values of the
environment.

A parameter is fixed before SETUP and never changes while the block runs.  The model takes every
parameter as a field of `Config`, and State carries the `Config` it runs under (log entry 1), so a claim
about every state is a claim about every value of the parameters.  A field whose parameter has a value in
R7 or R8 has that value as its default; an OPEN parameter has none.  FULL_UPDATE_EVERY is the one
parameter that is an input port instead, sampled at SETUP (R27, R31): `Inputs.fullUpdateEvery`. -/

namespace Sys2Proof

/-- The status the serial bus collaborator returns for a transaction (R29, R176). -/
inductive TxStatus where
  | ok
  | err
deriving DecidableEq, Repr, Inhabited

/-- The outcome of a busy wait (R94, R185). -/
inductive WaitOutcome where
  | readySeen
  | timeout
deriving DecidableEq, Repr, Inhabited

/-- The input BUSY, abstracted to READY / NOT_READY (R29, D39). -/
inductive BusyLevel where
  | ready
  | notReady
deriving DecidableEq, Repr, Inhabited

/-- The border/VCOM variant BVV (R8, R146): `a` or `b`; `other` stands for a parameter value outside
`{a, b}`, which CONFIG_OK refuses (R255, U17). -/
inductive BorderVariant where
  | a
  | b
  | other
deriving DecidableEq, Repr, Inhabited

/-- A two-byte PanelSettings value, byte 0 first (R22, R66). -/
structure PanelSettings where
  byte0 : Byte
  byte1 : Byte
deriving DecidableEq, Repr, Inhabited

/-- The eleven address bytes CMD_* (R8, R100); OPEN in the source. -/
structure CmdAddrs where
  tset : Byte
  tsetEn : Byte
  psr : Byte
  border : Byte
  vcom : Byte
  dtm1 : Byte
  dtm2 : Byte
  pon : Byte
  drf : Byte
  pof : Byte
  otpRead : Byte
deriving DecidableEq, Repr, Inhabited

/-- The parameters of one block instance.  PSR_PLAUSIBLE, a predicate on two bytes, is held as the
list of the pairs it rejects (log entry 26). -/
structure Config where
  /-- PANEL_W, PANEL_H, LOGICAL_W, LOGICAL_H (R7), REF. -/
  panelW : Nat := 176
  panelH : Nat := 264
  logicalW : Nat := 264
  logicalH : Nat := 176
  /-- OTP_SENTINEL (R8, R161). -/
  otpSentinel : Byte := 0xA5
  /-- OTP_BANK0_START and OTP_BANK1_START (R8), OPEN. -/
  otpBank0Start : Nat
  otpBank1Start : Nat
  /-- PSR_DEFAULT (R8), OPEN. -/
  psrDefault : PanelSettings
  /-- The pairs PSR_PLAUSIBLE rejects (R8, R166), OPEN; this spec's default rejects none. -/
  psrImplausible : List PanelSettings := []
  /-- TSET_EN_VALUE (R8, R102). -/
  tsetEnValue : Byte := 0x02
  /-- FAST_FLAG (R8, R143). -/
  fastFlag : Byte := 0x40
  /-- PSR0_FAST and PSR1_FAST (R8, R145). -/
  psr0Fast : Byte := 0x10
  psr1Fast : Byte := 0x02
  /-- BORDER_VALUE and VCOM_VALUE (R8, R104, R105). -/
  borderValue : Byte := 0x27
  vcomValue : Byte := 0x07
  /-- BVV (R8, R146), OPEN. -/
  bvv : BorderVariant
  /-- PRE_CONFIG_HOOK, a list of micro-operations (R8, R205, D31); this spec's value is the empty list. -/
  preConfigHook : List MicroOp := []
  /-- CMD_* (R8, R100), OPEN. -/
  addrs : CmdAddrs
  /-- T_RST in milliseconds (R8, R203), REF 50. -/
  tRst : Half := 50
  /-- BUSY_TIMEOUT in milliseconds (R8, R185), REF 15 000; no result depends on it (R12). -/
  busyTimeoutMs : Nat := 15000
  /-- POLL_INTERVAL in milliseconds (R8, R185), OPEN; no result depends on it. -/
  pollIntervalMs : Nat
  /-- CAL_HZ and WR_HZ with CAL_HZ < WR_HZ (`Config.clocksOk`; R8, R156), OPEN; no rule depends on them. -/
  calHz : Nat
  wrHz : Nat
  /-- BUSY_READY_LEVEL, DC_COMMAND_LEVEL, DC_DATA_LEVEL (R8, D39), OPEN; no rule depends on them. -/
  busyReadyLevel : Level
  dcCommandLevel : Level
  dcDataLevel : Level
  /-- PINS_PRESENT (R255). -/
  pinsPresent : Bool
deriving DecidableEq, Repr, Inhabited

/-- FREE VALUE: the status the environment answers at draw number `n` when State lists no answer for
it (R176, U6; log entry 7). -/
opaque Config.freeStatus : Nat → TxStatus

/-- FREE VALUE: the byte the environment answers at draw number `n` when State lists none (R176, U5,
U6, U14; log entry 7). -/
opaque Config.freeByte : Nat → Byte

/-- FREE VALUE: the outcome the environment answers at draw number `n` for a busy wait that finds BUSY
not ready, when State lists none (R176, R185, U6; log entry 7). -/
opaque Config.freeOutcome : Nat → WaitOutcome

end Sys2Proof
end

