-- ==== Sys2Proof/Decode.lean ====
section
/-! DEFINITION. Encodings (`30_encoding.md`): the host command word (R90, R92), the 20-bit record of a
micro-operation or ERR event (R94), the panel address byte (R100) and the panel command as a unit on the
bus (R96), each with its decoder and, after them, the encoder written from the same tables. -/

namespace Sys2Proof

/-- A word in one of the three formats of the opcode table. -/
inductive Encoded where
  /-- HOST8: a code on HOSTCMD (R90). -/
  | host (b : Byte)
  /-- EVT20: the record `{kind[3:0], arg[15:0]}` (R94). -/
  | record (r : BitVec 20)
  /-- PANELCMD: a panel address byte (R100). -/
  | panel (a : Byte)
deriving DecidableEq, Repr

/-- Why a word decodes to no instruction. -/
inductive DecodeError where
  /-- HOSTCMD values 0x00 and 0x04 to 0xFF name no operation (R92). -/
  | reservedHostCode (b : Byte)
  /-- Record kinds 10 to 15 are no kind of R94. -/
  | unknownKind (k : BitVec 4)
  /-- An argument bit is set that the record's kind does not use (R94; log entry 20). -/
  | reservedArgument (r : BitVec 20)
  /-- BULK source 3 is reserved (opcode table, row BULK). -/
  | reservedFrameSource
  /-- No panel command has this address byte (R100). -/
  | unknownAddress (a : Byte)
  /-- The bits are no word of the table's formats: too many of them. -/
  | notAWord (nbits w : Nat)
deriving DecidableEq, Repr

/-! ### Constants of the encodings -/

/-- The default address bytes of R100: PRESUMED, the spec marks them "from general knowledge, not in
source" (G1; log entry 3). -/
def defaultAddrs : CmdAddrs where
  tset := 0xE5
  tsetEn := 0xE0
  psr := 0x00
  border := 0x50
  vcom := 0x50
  dtm1 := 0x10
  dtm2 := 0x13
  pon := 0x04
  drf := 0x12
  pof := 0x02
  otpRead := 0xA2

/-- The address byte of a panel command (R100); no other instruction has one. -/
def CmdAddrs.addressOf (ad : CmdAddrs) : Instr → Option Byte
  | .tset => some ad.tset
  | .tsetEn => some ad.tsetEn
  | .psr => some ad.psr
  | .border => some ad.border
  | .vcom => some ad.vcom
  | .dtm1 => some ad.dtm1
  | .dtm2 => some ad.dtm2
  | .pon => some ad.pon
  | .drf => some ad.drf
  | .pof => some ad.pof
  | .otpRead => some ad.otpRead
  | .setup | .update | .forceFull
  | .cmd _ | .dat _ | .bulk _ | .rd | .bwait | .delay _ | .rstset _ | .attach _ | .detach _
  | .err _ => none

/-! ### Decoders -/

/-- The host command decoder (R90, R92). -/
def decodeHost (b : Byte) : Except DecodeError Instr :=
  if b = 0x01 then .ok .setup
  else if b = 0x02 then .ok .update
  else if b = 0x03 then .ok .forceFull
  else .error (.reservedHostCode b)

/-- `kind[3:0]` of a record: its bits 19 to 16 (R94). -/
def recordKind (r : BitVec 20) : BitVec 4 := r.extractLsb' 16 4

/-- `arg[15:0]` of a record: its bits 15 to 0 (R94). -/
def recordArg (r : BitVec 20) : Half := r.extractLsb' 0 16

/-- A byte argument: `arg[7:0]`, the rest of the argument 0 (R94, kinds 0 and 1). -/
def decodeByteArg (r : BitVec 20) (mk : Byte → Instr) : Except DecodeError Instr :=
  if (recordArg r).toNat < 256 then .ok (mk ((recordArg r).setWidth 8)) else .error (.reservedArgument r)

/-- No argument: all of `arg` 0 (R94, kinds 3 and 4). -/
def decodeNoArg (r : BitVec 20) (i : Instr) : Except DecodeError Instr :=
  if recordArg r = 0 then .ok i else .error (.reservedArgument r)

/-- A one-bit argument `arg[0]`, the rest 0 (R94, kinds 6, 7 and 8). -/
def decodeBitArg (r : BitVec 20) (zero one : Instr) : Except DecodeError Instr :=
  if recordArg r = 0 then .ok zero
  else if recordArg r = 1 then .ok one
  else .error (.reservedArgument r)

/-- The source argument of BULK, `arg[1:0]`: 0 is PF, 1 is HF, 2 is ZF, 3 is reserved (R94). -/
def decodeFrameArg (r : BitVec 20) : Except DecodeError Instr :=
  if recordArg r = 0 then .ok (.bulk .pf)
  else if recordArg r = 1 then .ok (.bulk .hf)
  else if recordArg r = 2 then .ok (.bulk .zf)
  else if recordArg r = 3 then .error .reservedFrameSource
  else .error (.reservedArgument r)

/-- The kind argument of ERR, `arg[1:0]` (R94, R270). -/
def decodeErrArg (r : BitVec 20) : Except DecodeError Instr :=
  if recordArg r = 0 then .ok (.err .bus)
  else if recordArg r = 1 then .ok (.err .busyTimeout)
  else if recordArg r = 2 then .ok (.err .calibration)
  else if recordArg r = 3 then .ok (.err .configuration)
  else .error (.reservedArgument r)

/-- The record decoder, kind by kind (R94). -/
def decodeRecord (r : BitVec 20) : Except DecodeError Instr :=
  match (recordKind r).toNat with
  | 0 => decodeByteArg r .cmd
  | 1 => decodeByteArg r .dat
  | 2 => decodeFrameArg r
  | 3 => decodeNoArg r .rd
  | 4 => decodeNoArg r .bwait
  | 5 => .ok (.delay (recordArg r))
  | 6 => decodeBitArg r (.rstset .low) (.rstset .high)
  | 7 => decodeBitArg r (.attach .cal) (.attach .wr)
  | 8 => decodeBitArg r (.detach .cal) (.detach .wr)
  | 9 => decodeErrArg r
  | _ => .error (.unknownKind (recordKind r))

/-- The panel command an address byte alone names: the first of R100's table that has it.  Two
parameters may hold the same value (R100), and then the payload (`decodeUnit`) or only the position tells the
commands apart (log entries 19 and 37). -/
def decodePanel (ad : CmdAddrs) (a : Byte) : Except DecodeError Instr :=
  if a = ad.tset then .ok .tset
  else if a = ad.tsetEn then .ok .tsetEn
  else if a = ad.psr then .ok .psr
  else if a = ad.border then .ok .border
  else if a = ad.vcom then .ok .vcom
  else if a = ad.dtm1 then .ok .dtm1
  else if a = ad.dtm2 then .ok .dtm2
  else if a = ad.pon then .ok .pon
  else if a = ad.drf then .ok .drf
  else if a = ad.pof then .ok .pof
  else if a = ad.otpRead then .ok .otpRead
  else .error (.unknownAddress a)

/-- The decoder of the model: one word of any of the three formats. -/
def decode (ad : CmdAddrs) : Encoded → Except DecodeError Instr
  | .host b => decodeHost b
  | .record r => decodeRecord r
  | .panel a => decodePanel ad a

/-- Is `payload` a payload of this panel command under the parameters `c`, on a panel whose frames have `n`
bytes?  The payload's length is fixed per command (R96, R100) and BORDER, VCOM and TSET_EN carry a constant
(R102, R104, R105). -/
def payloadFits (c : Config) (n : Nat) (payload : List Byte) : Instr → Bool
  | .tset => payload.length == 1
  | .tsetEn => payload == [c.tsetEnValue]
  | .psr => payload.length == 2
  | .border => payload == [c.borderValue]
  | .vcom => payload == [c.vcomValue]
  | .dtm1 | .dtm2 => payload.length == n
  | .pon | .drf | .pof | .otpRead => payload == []
  | .setup | .update | .forceFull
  | .cmd _ | .dat _ | .bulk _ | .rd | .bwait | .delay _ | .rstset _ | .attach _ | .detach _
  | .err _ => false

/-- The bus-trace decoder (R96, R112): the panel command that a command byte and the payload up to the
next command byte make.  DESIGN CHOICE (log entry 37): where the address byte and the payload fit several
commands, which R100 allows and only the position in the cycle tells apart (R218), it is the first of R100's
table. -/
def decodeUnit (c : Config) (n : Nat) (a : Byte) (payload : List Byte) : Except DecodeError Instr :=
  match panelCommands.find? (fun i => c.addrs.addressOf i == some a && payloadFits c n payload i) with
  | some i => .ok i
  | none => .error (.unknownAddress a)

/-- An instruction's format word from its table bits (bit 0 the least significant): one byte is a host
code where it names a host operation, and otherwise a panel address byte; up to three bytes are a
20-bit record whose upper bits are 0 (log entry 19). -/
def readTableWord (nbits w : Nat) : Except DecodeError Encoded :=
  if nbits ≤ 8 then
    if w < 256 then
      .ok (if w = 1 ∨ w = 2 ∨ w = 3 then .host (BitVec.ofNat 8 w) else .panel (BitVec.ofNat 8 w))
    else .error (.notAWord nbits w)
  else if nbits ≤ 24 ∧ w < 1048576 then .ok (.record (BitVec.ofNat 20 w))
  else .error (.notAWord nbits w)

/-- The instruction the decoder reads from a word of the opcode table, panel addresses at their
defaults. -/
def decodeTableWord (nbits w : Nat) : Option Instr :=
  match readTableWord nbits w with
  | .error _ => none
  | .ok e =>
    match decode defaultAddrs e with
    | .error _ => none
    | .ok i => some i

/-! ### Encoder -/

/-- A record from its kind and its argument (R94). -/
def mkRecord (kind : BitVec 4) (arg : Half) : Encoded := .record (kind ++ arg)

/-- The level bit of RSTSET (R94). -/
def Level.bit : Level → Half
  | .low => 0
  | .high => 1

/-- The device bit of ATTACH and DETACH (R94). -/
def Device.bit : Device → Half
  | .cal => 0
  | .wr => 1

/-- The source selector of BULK (R94). -/
def FrameSrc.code : FrameSrc → Half
  | .pf => 0
  | .hf => 1
  | .zf => 2

/-- The ERR code of an error kind (R94, R270). -/
def ErrKind.code : ErrKind → Half
  | .bus => 0
  | .busyTimeout => 1
  | .calibration => 2
  | .configuration => 3

/-- The encoder: the word of each instruction, from the tables of R90, R94 and R100. -/
def encode (ad : CmdAddrs) : Instr → Encoded
  | .setup => .host 0x01
  | .update => .host 0x02
  | .forceFull => .host 0x03
  | .cmd a => mkRecord 0 (a.setWidth 16)
  | .dat b => mkRecord 1 (b.setWidth 16)
  | .bulk src => mkRecord 2 src.code
  | .rd => mkRecord 3 0
  | .bwait => mkRecord 4 0
  | .delay t => mkRecord 5 t
  | .rstset l => mkRecord 6 l.bit
  | .attach d => mkRecord 7 d.bit
  | .detach d => mkRecord 8 d.bit
  | .err k => mkRecord 9 k.code
  | .tset => .panel ad.tset
  | .tsetEn => .panel ad.tsetEn
  | .psr => .panel ad.psr
  | .border => .panel ad.border
  | .vcom => .panel ad.vcom
  | .dtm1 => .panel ad.dtm1
  | .dtm2 => .panel ad.dtm2
  | .pon => .panel ad.pon
  | .drf => .panel ad.drf
  | .pof => .panel ad.pof
  | .otpRead => .panel ad.otpRead

end Sys2Proof
end

