-- ==== Sys2Proof/WellFormed.lean ====
section
/-! DEFINITION. Checks on instructions as syntax.

The operands of `Instr` are typed so that every value is legal; what remains to check is (1) that a panel
command's address byte names it and no earlier command of R100's table, without which its word does not
identify it (R100, R112), and (2) the parameters: what may stand in PRE_CONFIG_HOOK, and CAL_HZ < WR_HZ (R8,
R205). -/

namespace Sys2Proof

/-- No earlier panel command of R100's table has this one's address byte. -/
def Instr.addressUnambiguous (ad : CmdAddrs) (i : Instr) : Bool :=
  (panelCommands.takeWhile (fun j => j ≠ i)).all (fun j => ad.addressOf j != ad.addressOf i)

/-- A well-formed instruction under the address bytes `ad`: a host operation, a micro-operation, an ERR
event, or a panel command whose address byte identifies it. -/
def Instr.wf (ad : CmdAddrs) (i : Instr) : Bool :=
  !i.isPanelCommand || i.addressUnambiguous ad

/-- May the micro-operation stand in a PRE_CONFIG_HOOK under which the block's invariants hold?  One that
attaches or detaches a bus device or moves the reset line would break `10_state.md` R38 items 3 and 5. -/
def MicroOp.hookable : MicroOp → Bool
  | .cmd _ | .dat _ | .bulk _ | .rd | .bwait | .delay _ => true
  | .rstset _ | .attach _ | .detach _ => false

/-- A hook whose every entry is hookable and which the 16-bit index SUB can count past (R9, R24; log
entry 28). -/
def Config.hookWf (c : Config) : Bool :=
  c.preConfigHook.all MicroOp.hookable && decide (c.preConfigHook.length < 32768)

/-- CAL_HZ < WR_HZ (R8). -/
def Config.clocksOk (c : Config) : Bool := decide (c.calHz < c.wrHz)

/-- What the model asks of the parameters beside CONFIG_OK: the order of the two bus clocks (R8), which
SETUP does not check (R255), and the hook the invariants need. -/
def Config.wf (c : Config) : Bool := c.hookWf && c.clocksOk

end Sys2Proof
end

