-- ==== Sys2Proof/Machine/Parameters.lean ====
section
/-! DEFINITION. What the rules compute from the parameters: the geometry (R7), CONFIG_OK (R255),
PSR_PLAUSIBLE (R166), the values R8 fixes, and the reference instance of the
parameters that State.reset runs under (log entry 2). -/

namespace Sys2Proof

/-- FRAME_BYTES = PANEL_W x PANEL_H / 8 (R7). -/
def Config.frameBytes (c : Config) : Nat := c.panelW * c.panelH / 8

/-- PSTRIDE = PANEL_W / 8 (R7). -/
def Config.pstride (c : Config) : Nat := c.panelW / 8

/-- LSTRIDE = LOGICAL_W / 8 (R7). -/
def Config.lstride (c : Config) : Nat := c.logicalW / 8

/-- GEOMETRY_OK (R7). -/
def Config.geometryOk (c : Config) : Bool :=
  decide (c.logicalH = c.panelW ∧ c.logicalW = c.panelH ∧ c.panelW % 8 = 0 ∧ c.panelH % 8 = 0 ∧
    0 < c.panelW ∧ 0 < c.panelH)

/-- The conjuncts of CONFIG_OK that depend on parameters only: all but the second (R255). -/
def Config.paramsOk (c : Config) : Bool :=
  c.geometryOk &&
  decide (1 ≤ c.otpBank0Start) && decide (1 ≤ c.otpBank1Start) &&
  decide (c.otpBank0Start < 65536) && decide (c.otpBank1Start < 65536) &&
  decide (c.bvv ≠ .other) && c.pinsPresent

/-- CONFIG_OK(f), f the sampled FULL_UPDATE_EVERY (R255). -/
def Config.configOk (c : Config) (f : Word) : Bool := c.paramsOk && decide (f ≠ 0)

/-- PSR_PLAUSIBLE (R8, R166): the pair is none of those the parameter rejects. -/
def Config.plausible (c : Config) (p : PanelSettings) : Bool := decide (p ∉ c.psrImplausible)

/-- The parameters to which R8 gives one value, neither OPEN nor REF, hold that value. -/
structure Config.HasSpecConstants (c : Config) : Prop where
  otpSentinel : c.otpSentinel = 0xA5
  tsetEnValue : c.tsetEnValue = 0x02
  fastFlag : c.fastFlag = 0x40
  psr0Fast : c.psr0Fast = 0x10
  psr1Fast : c.psr1Fast = 0x02
  borderValue : c.borderValue = 0x27
  vcomValue : c.vcomValue = 0x07

/-- The byte a read transaction transmits, the "all-zero data phase" (R95, R183). -/
def readTxByte : Byte := 0x00

/-- The reference instance.  The values R7 and R8 give are the defaults of Config's fields; every OPEN value
here is PRESUMED (G1, G2, G3) or a DESIGN CHOICE (BVV, POLL_INTERVAL, clocks, polarities): log entry 2.  No
rule depends on which values these are. -/
def Config.reference : Config where
  otpBank0Start := 0x0FB4
  otpBank1Start := 0x1FB4
  psrDefault := ⟨0xCF, 0x8D⟩
  bvv := .a
  addrs := defaultAddrs
  pollIntervalMs := 1
  calHz := 1
  wrHz := 2
  busyReadyLevel := .high
  dcCommandLevel := .low
  dcDataLevel := .high
  pinsPresent := true

/-- FULL_UPDATE_EVERY's REF value, "default e.g. 120" (R8). -/
def fullUpdateEveryRef : Word := 120

end Sys2Proof
end

