-- ==== Sys2Proof/Machine/State.lean ====
section
/-! DEFINITION. The architectural state of EPD-CORE (`10_state.md`): the scalar registers of R21, the
frame memories PF and HF of R32 and R33, the input ports of R29 with the environment's answers (R176), the
output trace of R175, and the parameters the block runs under (R6). -/

namespace Sys2Proof.Machine

/-- ST, an enumeration of its 21 names (R24, U11). -/
inductive St where
  | idle
  | setupCheck
  | otpCmd
  | otpDummy
  | otpProbe
  | otpSkip
  | otpData0
  | otpData1
  | setupFin
  | hwReset
  | waitBusy1
  | configuring
  | transmittingFrame1
  | transmittingFrame2
  | waitBusy2
  | powerOn
  | waitBusy3
  | refresh
  | waitBusy4
  | powerOff
  | waitBusy5
deriving DecidableEq, Repr, Inhabited

/-- MODE: 0 is Full, 1 is Fast (R21). -/
inductive Mode where
  | full
  | fast
deriving DecidableEq, Repr, Inhabited

/-- OTP_BANK: 0 is bank 0, 1 is bank 1 (R21). -/
inductive Bank where
  | bank0
  | bank1
deriving DecidableEq, Repr, Inhabited

/-- The level of the data/command select line: C or D (R21, R177). -/
inductive DcLevel where
  | command
  | data
deriving DecidableEq, Repr, Inhabited

/-- ATTACHED: NONE, CAL or WR (R21). -/
inductive Attached where
  | none
  | cal
  | wr
deriving DecidableEq, Repr, Inhabited

/-- An event of the trace (R94, R175) with its argument and the result the environment returned.  A bus
event carries the DC level it ran under (R95, R175); BULK carries the bytes transmitted, not the selector
(R94); RD carries the byte it transmits and the byte it returns (R95, R183). -/
inductive Event where
  | cmd (dc : DcLevel) (a : Byte) (st : TxStatus)
  | dat (dc : DcLevel) (b : Byte) (st : TxStatus)
  | bulk (dc : DcLevel) (payload : List Byte) (st : TxStatus)
  | rd (dc : DcLevel) (tx : Byte) (v : Byte) (st : TxStatus)
  | bwait (o : WaitOutcome)
  | delay (t : Half)
  | rstset (l : Level)
  | attach (d : Device)
  | detach (d : Device)
  | err (k : ErrKind)
deriving DecidableEq, Repr

/-- The input ports (R29) and the answers of the environment (R176).  `statuses`, `readBytes` and
`waitOutcomes` list the answers to the next draws of each kind, first answer first; when a list is empty
the answer is a free value of Config at draw number `draws` (log entry 7).  `draws` and `placed` are the
MODEL's own fields, not the spec's: `placed` is an instruction of layer 2 or 3 that `State.withFetchWord`
hands to the very next step (log entry 18); no rule of the block writes it, and nothing is placed in any
state that a run from reset reaches. -/
structure Inputs where
  hostcmd : Byte
  hostcmdValid : Bool
  temp : Half
  fullUpdateEvery : Word
  busy : BusyLevel
  lf : Memory
  statuses : List TxStatus
  readBytes : List Byte
  waitOutcomes : List WaitOutcome
  draws : Nat
  placed : Option Instr
deriving DecidableEq, Repr

/-- The machine. -/
structure State where
  /-- The parameters (R6, R36): an argument of every step, which no step changes (log entry 1). -/
  cfg : Config
  /-- ST and SUB, the pair that stands in the place of a program counter (R24). -/
  st : St
  sub : Half
  /-- The flags FUNCTIONAL, INIT, HIST_VALID and MODE (R25). -/
  functional : Bool
  init : Bool
  histValid : Bool
  mode : Mode
  /-- TCODE, PSR_BASE, PSR_TMP0 (R21, R22). -/
  tcode : Byte
  psrBase : PanelSettings
  psrTmp0 : Byte
  /-- COUNTER and FUE (R21, R23). -/
  counter : Word
  fue : Word
  /-- OTP_BANK and OTP_SKIP (R21). -/
  otpBank : Bank
  otpSkip : Half
  /-- STATUS (R26). -/
  status : BitVec 4
  /-- The output levels DC and RST (R21, R30). -/
  dc : DcLevel
  rst : Level
  /-- ATTACHED (R21). -/
  attached : Attached
  /-- PF, the PhysicalFrame (R32), and HF, the PreviousFrame (R33). -/
  pf : Memory
  hf : Memory
  /-- The input ports (R29) and the environment's answers (R176). -/
  inp : Inputs
  /-- The trace: the events emitted so far, oldest first (R175). -/
  trace : List Event
deriving DecidableEq, Repr

/-- A step that has no successor although its micro-operation has a meaning: the spec's `stuck` (U23,
U24).  All three are unreachable from block reset, and all are safe: the model stops where the spec gives
no step. -/
inductive Fault where
  /-- Raised by CMD, DAT, BULK, RD and the panel commands when ATTACHED is NONE (R184, U24).  Safe. -/
  | transactionWithoutDevice
  /-- Raised by ATTACH when a device is attached (R187, U23).  Safe. -/
  | attachWhileAttached
  /-- Raised by DETACH of a device that is not the attached one (R188, U23).  Safe. -/
  | detachNotAttached
  /-- Raised by a host access to LF beyond its FRAME_BYTES bytes, an address that does not exist (R29, R60, R69);
  no step of the block raises it (R67).  Safe. -/
  | addressOutsideFrame
deriving DecidableEq, Repr

/-- A run the spec gives no meaning: its `refuse`. -/
inductive Refusal where
  /-- An instruction exec has no meaning for yet.  Safe.  No arm uses it. -/
  | notModelled (mnemonic : String)
  /-- Raised by the step, and by SETUP, UPDATE and FORCE_FULL, for anything the host presents while READY
  is 0 (R93, R250, U1).  Safe. -/
  | hostOperationInFlight
  /-- Raised by UPDATE and by the steps of a setup or a cycle when the parameters, or FUE, are none that
  CONFIG_OK accepts (R135, R140, R255): unreachable, since only a SETUP that passed the check gets there.
  Safe. -/
  | configurationWithoutMeaning
deriving DecidableEq, Repr

/-- The input ports before anything drives them (DESIGN CHOICE, log entry 6): no host operation is
presented, FULL_UPDATE_EVERY is at its REF value, LF is all background and no answer of the environment is
listed. -/
def Inputs.undriven : Inputs where
  hostcmd := 0
  hostcmdValid := false
  temp := 0
  fullUpdateEvery := fullUpdateEveryRef
  busy := .notReady
  lf := []
  statuses := []
  readBytes := []
  waitOutcomes := []
  draws := 0
  placed := none

/-- The state after block reset (R37, R301) of a block with the parameters `c`.  The spec leaves TCODE,
PSR_BASE, PSR_TMP0, FUE, PF and HF unspecified; the model holds zero there (DESIGN CHOICE, log entries 4
and 5). -/
def State.resetWith (c : Config) : State where
  cfg := c
  st := .idle
  sub := 0
  functional := false
  init := false
  histValid := false
  mode := .full
  tcode := 0
  psrBase := ⟨0, 0⟩
  psrTmp0 := 0
  counter := 0
  fue := 0
  otpBank := .bank0
  otpSkip := 0
  status := 0
  dc := .data
  rst := .high
  attached := .none
  pf := []
  hf := []
  inp := Inputs.undriven
  trace := []

/-- The state after block reset of the reference instance (R301; log entry 2). -/
def State.reset : State := State.resetWith Config.reference

end Sys2Proof.Machine
end

