-- ==== Sys2Proof/Machine/Flags.lean ====
section
/-! DEFINITION. The STATUS flags (`10_state.md` R26, `60_exceptions.md` R270): one sticky bit per error
kind.  The block has no other flag computation (R25). -/

namespace Sys2Proof.Machine

/-- The STATUS bit of an error kind: BUS_ERR 0, BUSY_TO 1, CAL_FAIL 2, CONFIG_ERR 3 (R26, R270). -/
def statusBit : ErrKind → Nat
  | .bus => 0
  | .busyTimeout => 1
  | .calibration => 2
  | .configuration => 3

/-- The mask of an error kind's STATUS bit. -/
def statusMask (k : ErrKind) : BitVec 4 := 1#4 <<< statusBit k

/-- Setting a flag leaves the others as they are (R26, R283). -/
def setStatus (st : BitVec 4) (k : ErrKind) : BitVec 4 := st ||| statusMask k

/-- Acceptance of UPDATE clears BUS_ERR and BUSY_TO and keeps CAL_FAIL and CONFIG_ERR (R26, R201). -/
def clearCycleStatus (st : BitVec 4) : BitVec 4 := st &&& 0b1100#4

/-- One STATUS flag, as the host reads it. -/
def statusFlag (st : BitVec 4) (k : ErrKind) : Bool := st.getLsbD (statusBit k)

end Sys2Proof.Machine
end

