-- ==== Sys2Proof/Machine/Memory.lean ====
section
/-! DEFINITION. Frame memories (`20_memory.md`): a byte address space of FRAME_BYTES bytes as a list of
address and byte pairs in one canonical form, addresses strictly rising and no entry equal to what an
unlisted address reads as. -/

namespace Sys2Proof.Machine

/-- What an address that nothing has written reads as: 0x00, a background byte (DESIGN CHOICE, log entry
5). -/
def unlistedByte : Byte := 0x00

/-- MemRead of one byte (R11). -/
def readByte : Memory → Nat → Byte
  | [], _ => unlistedByte
  | (k, v) :: rest, a => if k = a then v else readByte rest a

/-- All addresses of the list are greater than `lo`. -/
def allAbove (lo : Nat) (m : Memory) : Bool := m.all (fun c => decide (lo < c.1))

/-- The canonical form: addresses strictly rising, no unlisted-looking entry. -/
def memoryWf : Memory → Bool
  | [] => true
  | (k, v) :: rest => decide (v ≠ unlistedByte) && allAbove k rest && memoryWf rest

/-- Every listed address is one of the frame's `n` addresses. -/
def memoryWithin (n : Nat) (m : Memory) : Bool := m.all (fun c => decide (c.1 < n))

/-- MemWrite of one byte (R11), keeping the canonical form. -/
def writeByte : Memory → Nat → Byte → Memory
  | [], a, v => if v = unlistedByte then [] else [(a, v)]
  | (k, w) :: rest, a, v =>
    if a < k then (if v = unlistedByte then (k, w) :: rest else (a, v) :: (k, w) :: rest)
    else if a = k then (if v = unlistedByte then rest else (a, v) :: rest)
    else (k, w) :: writeByte rest a v

/-- The memory whose bytes `a` to `a + n - 1` are given by `f` and which lists nothing else. -/
def memoryFrom (f : Nat → Byte) : Nat → Nat → Memory
  | _, 0 => []
  | a, n + 1 => if f a = unlistedByte then memoryFrom f (a + 1) n else (a, f a) :: memoryFrom f (a + 1) n

/-- MemWrite of a whole frame of `n` bytes from byte 0 (R11, R67). -/
def memoryOf (n : Nat) (f : Nat → Byte) : Memory := memoryFrom f 0 n

/-- MemRead of a whole frame: its `n` bytes in ascending address (R66). -/
def frameOf (n : Nat) (m : Memory) : List Byte := (List.range n).map (readByte m)

/-- `pix(SPACE, W, x, y)`: bit `7 - (x mod 8)` of byte `y*(W/8) + x/8` (R11, R61, R62). -/
def pix (m : Memory) (w x y : Nat) : Bool := (readByte m (y * (w / 8) + x / 8)).getLsbD (7 - x % 8)

end Sys2Proof.Machine
end

