-- ==== Sys2Proof/Machine/Ops.lean ====
section
/-! DEFINITION. The named operations every meaning is written over: sequencing of outcomes, `emit`, the
draws from the environment, the one way an error is raised, the pc, and the output ports. -/

namespace Sys2Proof.Machine

/-- Do `o`, and if it answers a next state go on from there with `f`. -/
def andThen (o : Host.Outcome State Fault Refusal) (f : State → Host.Outcome State Fault Refusal) :
    Host.Outcome State Fault Refusal :=
  match o with
  | .next s => f s
  | .fault r => .fault r
  | .refused r => .refused r

/-- `emit E` (R11, R175). -/
def emit (e : Event) (s : State) : State := { s with trace := s.trace ++ [e] }

/-- `pc <- (S, 0)` (R11, R24). -/
def goto (st : St) (s : State) : State := { s with st := st, sub := 0 }

/-- `SUB <- SUB + 1` (R24). -/
def nextSub (s : State) : State := { s with sub := s.sub + 1 }

/-- TAKING AN ERROR: `raise K` sets K's STATUS flag and emits ERR K (R11, R271, R282).  It saves nothing,
changes no mode and transfers control nowhere; what follows is the raising rule's.  There is no return
from an error and nothing to restore (R283). -/
def raise (k : ErrKind) (s : State) : State := emit (.err k) { s with status := setStatus s.status k }

/-! ### Draws from the environment (R176) -/

/-- The status the environment answers for the next transaction. -/
def nextStatus (s : State) : TxStatus :=
  match s.inp.statuses with
  | [] => Config.freeStatus s.inp.draws
  | st :: _ => st

/-- The byte the environment answers for the next read. -/
def nextByte (s : State) : Byte :=
  match s.inp.readBytes with
  | [] => Config.freeByte s.inp.draws
  | b :: _ => b

/-- The outcome of the next busy wait: READY_SEEN if BUSY is ready when the wait begins, else what the
environment answers (R185, the law on the draw). -/
def nextOutcome (s : State) : WaitOutcome :=
  match s.inp.busy with
  | .ready => .readySeen
  | .notReady =>
    match s.inp.waitOutcomes with
    | [] => Config.freeOutcome s.inp.draws
    | o :: _ => o

/-- The status has been drawn. -/
def takeStatus (s : State) : State :=
  { s with inp := { s.inp with statuses := s.inp.statuses.tail, draws := s.inp.draws + 1 } }

/-- A status and a byte have been drawn. -/
def takeStatusAndByte (s : State) : State :=
  { s with inp := { s.inp with
      statuses := s.inp.statuses.tail, readBytes := s.inp.readBytes.tail, draws := s.inp.draws + 1 } }

/-- The outcome has been drawn; a wait that finds BUSY ready draws nothing. -/
def takeOutcome (s : State) : State :=
  match s.inp.busy with
  | .ready => s
  | .notReady =>
    { s with inp := { s.inp with waitOutcomes := s.inp.waitOutcomes.tail, draws := s.inp.draws + 1 } }

/-- The host's presentation on HOSTCMD ends (R250; log entry 9). -/
def withdrawHostcmd (s : State) : State := { s with inp := { s.inp with hostcmdValid := false } }

/-- The instruction that `State.withFetchWord` placed has been taken (log entry 18). -/
def takePlaced (s : State) : State := { s with inp := { s.inp with placed := none } }

/-! ### Registers with a rule of their own -/

/-- ATTACHED after ATTACH d (R187). -/
def Attached.ofDevice : Device → Attached
  | .cal => .cal
  | .wr => .wr

/-- `x[DC] <- l` (R177, R180). -/
def driveDc (l : DcLevel) (s : State) : State := { s with dc := l }

/-! ### Output ports (R30) -/

/-- READY: 1 exactly when ST is Idle. -/
def ready (s : State) : Bool := decide (s.st = .idle)

/-- The electrical level of the data/command select pin (R21, R177, D39). -/
def dcPin (s : State) : Level :=
  match s.dc with
  | .command => s.cfg.dcCommandLevel
  | .data => s.cfg.dcDataLevel

/-- The electrical level of the busy pin that the abstract input BUSY stands for (R29, D39). -/
def busyPin (s : State) : Level :=
  match s.inp.busy, s.cfg.busyReadyLevel with
  | .ready, l => l
  | .notReady, .low => .high
  | .notReady, .high => .low

/-- The 5-bit numbering of ST (R24). -/
def St.code : St → BitVec 5
  | .idle => 0
  | .setupCheck => 1
  | .otpCmd => 2
  | .otpDummy => 3
  | .otpProbe => 4
  | .otpSkip => 5
  | .otpData0 => 6
  | .otpData1 => 7
  | .setupFin => 8
  | .hwReset => 9
  | .waitBusy1 => 10
  | .configuring => 11
  | .transmittingFrame1 => 12
  | .transmittingFrame2 => 13
  | .waitBusy2 => 14
  | .powerOn => 15
  | .waitBusy3 => 16
  | .refresh => 17
  | .waitBusy4 => 18
  | .powerOff => 19
  | .waitBusy5 => 20

/-- The states a SETUP runs through: ST 1 to 8 (R24, R157). -/
def St.inSetup : St → Bool
  | .setupCheck | .otpCmd | .otpDummy | .otpProbe | .otpSkip | .otpData0 | .otpData1 | .setupFin => true
  | .idle | .hwReset | .waitBusy1 | .configuring | .transmittingFrame1 | .transmittingFrame2
  | .waitBusy2 | .powerOn | .waitBusy3 | .refresh | .waitBusy4 | .powerOff | .waitBusy5 => false

/-- The states an update cycle runs through: ST 9 to 20 (R24, R200). -/
def St.inCycle : St → Bool
  | .hwReset | .waitBusy1 | .configuring | .transmittingFrame1 | .transmittingFrame2
  | .waitBusy2 | .powerOn | .waitBusy3 | .refresh | .waitBusy4 | .powerOff | .waitBusy5 => true
  | .idle | .setupCheck | .otpCmd | .otpDummy | .otpProbe | .otpSkip | .otpData0 | .otpData1
  | .setupFin => false

end Sys2Proof.Machine
end

