-- ==== Sys2Proof/Machine/ErrEvents.lean ====
section
/-! DEFINITION. The ERR event (R94, R271): what is left of an error kind when the rule that raises it is
taken away, the STATUS flag and the event (log entry 23). -/

namespace Sys2Proof.Machine

/-- ERR k (R11, R271). -/
def execErr (k : ErrKind) (s : State) : Host.Outcome State Fault Refusal := .next (raise k s)

end Sys2Proof.Machine
end

