-- ==== Sys2Proof/Machine/Policy.lean ====
section
/-! DEFINITION. The Update-Mode Policy (`41_policy.md`): four pure decision functions.  They write nothing
and never fail (R148). -/

namespace Sys2Proof.Machine

/-- MODESEL (R140): Full if the counter is 0 or a multiple of FUE, else Fast.  FUE = 0 does not get here
(R251). -/
def modeSel (counter fue : Word) : Mode :=
  if counter = 0 ∨ counter % fue = 0 then .full else .fast

/-- `trunc_8` of TEMP (R10, R142). -/
def trunc8 (temp : Half) : Byte := temp.setWidth 8

/-- TEMPCODE (R142, R143): in Fast mode FAST_FLAG, bit 6, is forced to 1. -/
def tempCode (c : Config) (temp : Half) : Mode → Byte
  | .full => trunc8 temp
  | .fast => trunc8 temp ||| c.fastFlag

/-- PSRSEL (R145): the PanelSettings bytes PSR_TX transmitted in a cycle. -/
def psrSel (c : Config) (base : PanelSettings) : Mode → PanelSettings
  | .full => base
  | .fast => ⟨base.byte0 ||| c.psr0Fast, base.byte1 ||| c.psr1Fast⟩

/-- BVSEL, variant a (R146): is BORDER sent once before PSR and VCOM once after it? -/
def borderAroundPsr (mode : Mode) (bvv : BorderVariant) : Bool :=
  decide (mode = .fast ∧ bvv = .a)

/-- BVSEL, variant b (R146): is BORDER sent twice before the frames and VCOM twice after them? -/
def borderAroundFrames (mode : Mode) (bvv : BorderVariant) : Bool :=
  decide (mode = .fast ∧ bvv = .b)

end Sys2Proof.Machine
end

