-- ==== Sys2Proof/Machine/Operands.lean ====
section
/-! DEFINITION. Operand forms: the frame sources of BULK, the payload operands of the panel commands
(R101 to R106), and the macros of R111 the state lists are written with. -/

namespace Sys2Proof.Machine

/-- The memory a frame source names (R60); ZF is the constant zero frame (R63, D44). -/
def frameSource (s : State) : FrameSrc → Memory
  | .pf => s.pf
  | .hf => s.hf
  | .zf => []

/-- The payload of BULK: `MemRead(s, 0, FRAME_BYTES)` (R182). -/
def framePayload (s : State) (src : FrameSrc) : List Byte := frameOf s.cfg.frameBytes (frameSource s src)

/-- PREVIOUS as a frame source (R241): HF once a frame has been recorded, ZF before. -/
def previousSrc (s : State) : FrameSrc := if s.histValid then .hf else .zf

/-- The frame-2 operand (R106, R207, R242): ZF in Full mode, `previous()` in Fast mode. -/
def frame2Src (s : State) : FrameSrc :=
  match s.mode with
  | .full => .zf
  | .fast => previousSrc s

/-- PSR_TX of the cycle in flight (R28, R145). -/
def psrTx (s : State) : PanelSettings := psrSel s.cfg s.psrBase s.mode

/-! ### Macros (R111) -/

/-- `send_command(a)` as micro-operations. -/
def commandOps (a : Byte) : List Instr := [.cmd a]

/-- `WR1(X, v)`. -/
def wr1 (a v : Byte) : List Instr := [.cmd a, .dat v]

/-- `WR2(X, v0, v1)`. -/
def wr2 (a v0 v1 : Byte) : List Instr := [.cmd a, .dat v0, .dat v1]

/-- `WRF(X, s)`. -/
def wrf (a : Byte) (src : FrameSrc) : List Instr := [.cmd a, .bulk src]

/-- `TWICE(X)`, X the command with the address byte `a` (R107, R111). -/
def twice (a : Byte) : List Instr := [.cmd a, .cmd a]

/-- `HWRESET`, with `t` = T_RST (R111, R203). -/
def hwResetOps (t : Half) : List Instr :=
  [.rstset .low, .delay t, .rstset .high, .delay t, .rstset .low, .delay t, .rstset .high, .delay t]

/-- The micro-operations of a panel command in the state `s` (R96, R101 to R108, R111): its command byte and its
payload; none for any other instruction. -/
def unitOps (s : State) : Instr → List Instr
  | .tset => wr1 s.cfg.addrs.tset s.tcode
  | .tsetEn => wr1 s.cfg.addrs.tsetEn s.cfg.tsetEnValue
  | .psr => wr2 s.cfg.addrs.psr (psrTx s).byte0 (psrTx s).byte1
  | .border => wr1 s.cfg.addrs.border s.cfg.borderValue
  | .vcom => wr1 s.cfg.addrs.vcom s.cfg.vcomValue
  | .dtm1 => wrf s.cfg.addrs.dtm1 .pf
  | .dtm2 => wrf s.cfg.addrs.dtm2 (frame2Src s)
  | .pon => commandOps s.cfg.addrs.pon
  | .drf => commandOps s.cfg.addrs.drf
  | .pof => commandOps s.cfg.addrs.pof
  | .otpRead => commandOps s.cfg.addrs.otpRead
  | .setup | .update | .forceFull
  | .cmd _ | .dat _ | .bulk _ | .rd | .bwait | .delay _ | .rstset _ | .attach _ | .detach _
  | .err _ => []

end Sys2Proof.Machine
end

