-- ==== Sys2Proof/Machine/Rotator.lean ====
section
/-! DEFINITION. The Orientation Rotator (`40_rotator.md`), in the closed form of R132: bit `b` of byte `i`
of PF is the logical pixel that R130's map sends there.  That it does what R130's loop over the logical
pixels says is a statement (Obligations; log entry 29). -/

namespace Sys2Proof.Machine

/-- A byte from its eight bits, bit 0 first (R10). -/
def packByte (f : Nat → Bool) : Byte :=
  (List.range 8).foldl (fun acc b => if f b then acc ||| (1#8 <<< b) else acc) 0#8

/-- Bit `b` of byte `i` of `rot(LF)` (R132): with `py = i / PSTRIDE` and `px = (i mod PSTRIDE) * 8 + (7 - b)`
it is the logical pixel `(py, LOGICAL_H - 1 - px)`. -/
def rotBit (c : Config) (lf : Memory) (i b : Nat) : Bool :=
  pix lf c.logicalW (i / c.pstride) (c.logicalH - 1 - ((i % c.pstride) * 8 + (7 - b)))

/-- ROTATE as a pure function of LF (R130, R132, R134): all FRAME_BYTES bytes of PF. -/
def rot (c : Config) (lf : Memory) : Memory := memoryOf c.frameBytes (fun i => packByte (rotBit c lf i))

end Sys2Proof.Machine
end

