-- ==== Sys2Proof/Machine/HostOps.lean ====
section
/-! DEFINITION. The host operations (`46_host_ops.md`), each an atomic acceptance step.  The rest of a SETUP
is in CalibrationReader.lean, the rest of an UPDATE in Orchestrator.lean. -/

namespace Sys2Proof.Machine

/-- The failing acceptance step of SETUP (R251, R275): STATUS and FUNCTIONAL cleared, ConfigurationError
raised, nothing else written. -/
def setupAborts (s : State) : State :=
  goto .idle (raise .configuration { s with status := 0, functional := false })

/-- The accepting acceptance step of SETUP (R251): a new setup lifetime begins. -/
def setupStarts (s : State) : State :=
  goto .setupCheck
    { s with
      status := 0, functional := false, fue := s.inp.fullUpdateEvery,
      counter := 0, init := false, histValid := false, dc := .data }

/-- SETUP (R251); presented while READY is 0 it has no meaning (R93). -/
def execSetup (s : State) : Host.Outcome State Fault Refusal :=
  if s.st ≠ .idle then .refused .hostOperationInFlight
  else if s.cfg.configOk s.inp.fullUpdateEvery then .next (setupStarts s)
  else .next (setupAborts s)

/-- The acceptance step of UPDATE with FUNCTIONAL = 1 (R201): rotate, then policy, no event. -/
def updateStarts (s : State) : State :=
  let mode := modeSel s.counter s.fue
  goto (if s.init then .waitBusy1 else .hwReset)
    { s with
      status := clearCycleStatus s.status, pf := rot s.cfg s.inp.lf,
      mode := mode, tcode := tempCode s.cfg s.inp.temp mode }

/-- UPDATE (R252): nothing while FUNCTIONAL is 0.  A functional block whose parameters or FUE no SETUP can
have accepted is unreachable, and neither the rotator nor MODESEL has a meaning there (R135, R140; log
entry 17). -/
def execUpdate (s : State) : Host.Outcome State Fault Refusal :=
  if s.st ≠ .idle then .refused .hostOperationInFlight
  else if s.functional = false then .next s
  else if s.cfg.configOk s.fue then .next (updateStarts s)
  else .refused .configurationWithoutMeaning

/-- FORCE_FULL (R253): `x[COUNTER] <- 0` and nothing else. -/
def execForceFull (s : State) : Host.Outcome State Fault Refusal :=
  if s.st ≠ .idle then .refused .hostOperationInFlight
  else .next { s with counter := 0 }

end Sys2Proof.Machine
end

