-- ==== Sys2Proof/Machine/Sequencer.lean ====
section
/-! DEFINITION. The Command/Data Transaction Sequencer (`43_sequencer.md`): the primitives R180 to R189 and
the meanings of the nine micro-operations. -/

namespace Sys2Proof.Machine

/-- A transaction that sends and returns no byte, an attached device given: drive DC, draw the status, emit
the event at that DC level, bring DC back to its rest level D, raise BusTransactionError on ERR (R177, R180
to R182, R272). -/
def sendTransaction (l : DcLevel) (ev : DcLevel → TxStatus → Event) (s : State) : State :=
  let st := nextStatus s
  let s1 := driveDc l s
  let s2 := driveDc .data (emit (ev s1.dc st) (takeStatus s1))
  match st with
  | .ok => s2
  | .err => raise .bus s2

/-- A read transaction, an attached device given: DC at data level, draw status and byte, emit the event.
The caller raises the errors (R183). -/
def readTransaction (s : State) : State :=
  let s1 := driveDc .data s
  emit (.rd s1.dc readTxByte (nextByte s) (nextStatus s)) (takeStatusAndByte s1)

/-- `require x[ATTACHED] != NONE`, common to CMD, DAT, BULK and RD (R184). -/
def requireDevice (f : State → State) (s : State) : Host.Outcome State Fault Refusal :=
  match s.attached with
  | .none => .fault .transactionWithoutDevice
  | .cal | .wr => .next (f s)

/-- `send_command(a)` (R180). -/
def sendCommand (a : Byte) (s : State) : Host.Outcome State Fault Refusal :=
  requireDevice (sendTransaction .command (fun dc st => .cmd dc a st)) s

/-- One byte of `send_data` (R181). -/
def sendByte (b : Byte) (s : State) : Host.Outcome State Fault Refusal :=
  requireDevice (sendTransaction .data (fun dc st => .dat dc b st)) s

/-- `send_data(bytes)` (R181): one transaction per byte; an ERR on one byte does not stop the rest. -/
def sendData : List Byte → State → Host.Outcome State Fault Refusal
  | [], s => .next s
  | b :: rest, s => andThen (sendByte b s) (sendData rest)

/-- `send_frame(s)` (R182): ONE transaction of FRAME_BYTES bytes. -/
def sendFrame (src : FrameSrc) (s : State) : Host.Outcome State Fault Refusal :=
  requireDevice (sendTransaction .data (fun dc st => .bulk dc (framePayload s src) st)) s

/-- `wait_busy()` in its untimed reading (R185): both outcomes have the same successor. -/
def waitBusy (s : State) : State :=
  let o := nextOutcome s
  let s1 := emit (.bwait o) (takeOutcome s)
  match o with
  | .readySeen => s1
  | .timeout => raise .busyTimeout s1

/-! ### The micro-operations -/

/-- CMD a (R180). -/
def execCmd (a : Byte) (s : State) : Host.Outcome State Fault Refusal := sendCommand a s

/-- DAT b (R181). -/
def execDat (b : Byte) (s : State) : Host.Outcome State Fault Refusal := sendData [b] s

/-- BULK src (R182). -/
def execBulk (src : FrameSrc) (s : State) : Host.Outcome State Fault Refusal := sendFrame src s

/-- RD (R183). -/
def execRd (s : State) : Host.Outcome State Fault Refusal := requireDevice readTransaction s

/-- BWAIT (R185): needs no attached device. -/
def execBwait (s : State) : Host.Outcome State Fault Refusal := .next (waitBusy s)

/-- DELAY t (R189): the model has no clock. -/
def execDelay (t : Half) (s : State) : Host.Outcome State Fault Refusal := .next (emit (.delay t) s)

/-- RSTSET l (R186). -/
def execRstset (l : Level) (s : State) : Host.Outcome State Fault Refusal :=
  .next (emit (.rstset l) { s with rst := l })

/-- ATTACH d (R187): `require x[ATTACHED] == NONE`. -/
def execAttach (d : Device) (s : State) : Host.Outcome State Fault Refusal :=
  if s.attached = .none then .next (emit (.attach d) { s with attached := Attached.ofDevice d })
  else .fault .attachWhileAttached

/-- DETACH d (R188): `require x[ATTACHED] == d`. -/
def execDetach (d : Device) (s : State) : Host.Outcome State Fault Refusal :=
  if s.attached = Attached.ofDevice d then .next (emit (.detach d) { s with attached := .none })
  else .fault .detachNotAttached

end Sys2Proof.Machine
end

