-- ==== Sys2Proof/Machine/PanelCommands.lean ====
section
/-! DEFINITION. The eleven panel commands (`30_encoding.md` R96 to R108): each is ONE command-byte
transaction followed by its payload, as one unit (log entry 21).  No transaction's failure stops the rest of a unit
(R272). -/

namespace Sys2Proof.Machine

/-- TSET (R101): the payload is TCODE. -/
def execTset (s : State) : Host.Outcome State Fault Refusal :=
  andThen (sendCommand s.cfg.addrs.tset s) (sendData [s.tcode])

/-- TSET_EN (R102): the payload is the constant TSET_EN_VALUE. -/
def execTsetEn (s : State) : Host.Outcome State Fault Refusal :=
  andThen (sendCommand s.cfg.addrs.tsetEn s) (sendData [s.cfg.tsetEnValue])

/-- PSR (R103): the payload is PSR_TX, byte 0 first. -/
def execPsr (s : State) : Host.Outcome State Fault Refusal :=
  andThen (sendCommand s.cfg.addrs.psr s) (sendData [(psrTx s).byte0, (psrTx s).byte1])

/-- BORDER (R104): the payload is the constant BORDER_VALUE. -/
def execBorder (s : State) : Host.Outcome State Fault Refusal :=
  andThen (sendCommand s.cfg.addrs.border s) (sendData [s.cfg.borderValue])

/-- VCOM (R105): the payload is the constant VCOM_VALUE. -/
def execVcom (s : State) : Host.Outcome State Fault Refusal :=
  andThen (sendCommand s.cfg.addrs.vcom s) (sendData [s.cfg.vcomValue])

/-- DTM1 (R106): the payload is the bulk frame PF. -/
def execDtm1 (s : State) : Host.Outcome State Fault Refusal :=
  andThen (sendCommand s.cfg.addrs.dtm1 s) (sendFrame .pf)

/-- DTM2 (R106): the payload is the zero frame in Full mode and `previous()` in Fast mode. -/
def execDtm2 (s : State) : Host.Outcome State Fault Refusal :=
  andThen (sendCommand s.cfg.addrs.dtm2 s) (sendFrame (frame2Src s))

/-- PON (R107): the command byte alone, no payload; its state sends it twice. -/
def execPon (s : State) : Host.Outcome State Fault Refusal := sendCommand s.cfg.addrs.pon s

/-- DRF (R107): the command byte alone, no payload; its state sends it twice. -/
def execDrf (s : State) : Host.Outcome State Fault Refusal := sendCommand s.cfg.addrs.drf s

/-- POF (R107): the command byte alone, no payload; its state sends it twice. -/
def execPof (s : State) : Host.Outcome State Fault Refusal := sendCommand s.cfg.addrs.pof s

/-- OTP_READ (R108): the command byte alone, "no trailing data phase". -/
def execOtpRead (s : State) : Host.Outcome State Fault Refusal := sendCommand s.cfg.addrs.otpRead s

end Sys2Proof.Machine
end

