-- ==== Sys2Proof/Machine/Dispatch.lean ====
section
/-! DEFINITION. One arm per constructor of Instr. -/

namespace Sys2Proof.Machine

def exec (i : Instr) (s : State) : Host.Outcome State Fault Refusal :=
  match i with
  -- host operations (R90)
  | .setup => Sys2Proof.Machine.execSetup s
  | .update => Sys2Proof.Machine.execUpdate s
  | .forceFull => Sys2Proof.Machine.execForceFull s
  -- micro-operations (R94)
  | .cmd a => Sys2Proof.Machine.execCmd a s
  | .dat b => Sys2Proof.Machine.execDat b s
  | .bulk src => Sys2Proof.Machine.execBulk src s
  | .rd => Sys2Proof.Machine.execRd s
  | .bwait => Sys2Proof.Machine.execBwait s
  | .delay t => Sys2Proof.Machine.execDelay t s
  | .rstset l => Sys2Proof.Machine.execRstset l s
  | .attach d => Sys2Proof.Machine.execAttach d s
  | .detach d => Sys2Proof.Machine.execDetach d s
  -- the ERR event (R94)
  | .err k => Sys2Proof.Machine.execErr k s
  -- panel commands (R100)
  | .tset => Sys2Proof.Machine.execTset s
  | .tsetEn => Sys2Proof.Machine.execTsetEn s
  | .psr => Sys2Proof.Machine.execPsr s
  | .border => Sys2Proof.Machine.execBorder s
  | .vcom => Sys2Proof.Machine.execVcom s
  | .dtm1 => Sys2Proof.Machine.execDtm1 s
  | .dtm2 => Sys2Proof.Machine.execDtm2 s
  | .pon => Sys2Proof.Machine.execPon s
  | .drf => Sys2Proof.Machine.execDrf s
  | .pof => Sys2Proof.Machine.execPof s
  | .otpRead => Sys2Proof.Machine.execOtpRead s

end Sys2Proof.Machine
end

