-- ==== Sys2Proof/Machine/CalibrationReader.lean ====
section
/-! DEFINITION. The Calibration Reader (`42_otp_reader.md`): what its states do with the answers of their
transactions.  Their micro-operations are listed in Orchestrator.lean. -/

namespace Sys2Proof.Machine

/-- The last three lines of the failure step (R167, R274): CalibrationFailure, PSR_DEFAULT, SetupFin. -/
def calibrationFails (s : State) : State :=
  goto .setupFin { raise .calibration s with psrBase := s.cfg.psrDefault }

/-- The failure step after a read's status ERR (R167): the reader raises BusTransactionError itself (R183),
then CalibrationFailure, in that order (R281). -/
def readFails (s : State) : State := calibrationFails (raise .bus s)

/-- OtpProbe's writes (R161): the sentinel selects bank 0, every other byte bank 1. -/
def selectBank (p : Byte) (s : State) : State :=
  if p = s.cfg.otpSentinel then
    { s with otpBank := .bank0, otpSkip := BitVec.ofNat 16 (s.cfg.otpBank0Start - 1) }
  else
    { s with otpBank := .bank1, otpSkip := BitVec.ofNat 16 (s.cfg.otpBank1Start - 1) }

/-- One discard read done (R162): the state is left when OTP_SKIP reaches 0.  DESIGN CHOICE (log entry 36):
SUB, which is no index here (R24), stays 0 through all the discard reads and does not count them. -/
def skipOne (s : State) : State :=
  let s1 := { s with otpSkip := s.otpSkip - 1 }
  if s1.otpSkip = 0 then goto .otpData0 s1 else s1

/-- Commit (R166): a plausible pair becomes PSR_BASE, any other is a CalibrationFailure without a bus
error. -/
def commit (d1 : Byte) (s : State) : State :=
  if s.cfg.plausible ⟨s.psrTmp0, d1⟩ then goto .setupFin { s with psrBase := ⟨s.psrTmp0, d1⟩ }
  else calibrationFails s

/-- What follows a read with status `st` and byte `v` in a state of the reader: the failure step on ERR,
`good` otherwise (R157, R167). -/
def afterRead (st : TxStatus) (good : State → State) (s : State) : State :=
  match st with
  | .ok => good s
  | .err => readFails s

end Sys2Proof.Machine
end

