-- ==== Sys2Proof/Machine/History.lean ====
section
/-! DEFINITION. The Frame History Tracker (`45_history.md`) and the completion step that feeds it
(`44_orchestrator.md` R215). -/

namespace Sys2Proof.Machine

/-- RECORD (R240): a copy of PF into HF. -/
def record (s : State) : State := { s with hf := s.pf, histValid := true }

/-- PREVIOUS (R241): the last recorded frame, or the zero frame before any. -/
def previous (s : State) : List Byte := framePayload s (previousSrc s)

/-- The completion step (R215): record, count, back to Idle; it emits no event. -/
def complete (s : State) : State := goto .idle { record s with counter := s.counter + 1 }

end Sys2Proof.Machine
end

