-- ==== Sys2Proof/Machine/Orchestrator.lean ====
section
/-! DEFINITION. The Power/Refresh Orchestrator (`44_orchestrator.md`) and the state lists of the Calibration
Reader: which micro-operation comes next, and what follows it.  A step performs micro-operation number SUB
of the list of ST (R24). -/

namespace Sys2Proof.Machine

/-- The list of Configuring (R205). -/
def configuringOps (s : State) : List Instr :=
  s.cfg.preConfigHook.map MicroOp.instr ++ unitOps s .tset ++ unitOps s .tsetEn ++
  (if borderAroundPsr s.mode s.cfg.bvv then unitOps s .border else []) ++ unitOps s .psr ++
  (if borderAroundPsr s.mode s.cfg.bvv then unitOps s .vcom else [])

/-- The list of TransmittingFrame1 (R206). -/
def frame1Ops (s : State) : List Instr :=
  (if borderAroundFrames s.mode s.cfg.bvv then unitOps s .border ++ unitOps s .border else []) ++
  unitOps s .dtm1

/-- The list of TransmittingFrame2 (R207). -/
def frame2Ops (s : State) : List Instr :=
  unitOps s .dtm2 ++
  (if borderAroundFrames s.mode s.cfg.bvv then unitOps s .vcom ++ unitOps s .vcom else [])

/-- DETACH of the device that is attached, if one is (R158). -/
def detachAttached : Attached → List Instr
  | .none => []
  | .cal => [.detach .cal]
  | .wr => [.detach .wr]

/-- What SetupCheck still has to emit from position SUB on (R158): `RSTSET 1`, then DETACH of the attached
device if there is one, then `ATTACH CAL` (log entry 15). -/
def setupCheckOps (s : State) : List Instr :=
  match s.sub.toNat with
  | 0 => .rstset .high :: detachAttached s.attached ++ [.attach .cal]
  | 1 => detachAttached s.attached ++ [.attach .cal]
  | _ => [.attach .cal]

/-- The instructions the current state has still to run, the next one first (R24): the host operation
presented in Idle (R250), and in every other state the rest of its list. -/
def remaining (s : State) : List Instr :=
  match s.st with
  | .idle =>
    if s.inp.hostcmdValid then
      match decodeHost s.inp.hostcmd with
      | .ok i => [i]
      | .error _ => []
    else []
  | .setupCheck => setupCheckOps s
  | .otpCmd => (unitOps s .otpRead).drop s.sub.toNat
  | .otpDummy | .otpProbe | .otpData0 | .otpData1 => [Instr.rd].drop s.sub.toNat
  | .otpSkip => List.replicate s.otpSkip.toNat .rd
  | .setupFin => [Instr.detach .cal, .attach .wr].drop s.sub.toNat
  | .hwReset => (hwResetOps s.cfg.tRst).drop s.sub.toNat
  | .waitBusy1 | .waitBusy2 | .waitBusy3 | .waitBusy4 | .waitBusy5 => [Instr.bwait].drop s.sub.toNat
  | .configuring => (configuringOps s).drop s.sub.toNat
  | .transmittingFrame1 => (frame1Ops s).drop s.sub.toNat
  | .transmittingFrame2 => (frame2Ops s).drop s.sub.toNat
  | .powerOn => (twice s.cfg.addrs.pon).drop s.sub.toNat
  | .refresh => (twice s.cfg.addrs.drf).drop s.sub.toNat
  | .powerOff => (twice s.cfg.addrs.pof).drop s.sub.toNat

/-- The instruction the next step runs. -/
def fetch (s : State) : Option Instr := (remaining s).head?

/-- The fixed successor of a state (R157, R200). -/
def St.succ : St → St
  | .idle => .idle
  | .setupCheck => .otpCmd
  | .otpCmd => .otpDummy
  | .otpDummy => .otpProbe
  | .otpProbe => .otpSkip
  | .otpSkip => .otpData0
  | .otpData0 => .otpData1
  | .otpData1 => .setupFin
  | .setupFin => .idle
  | .hwReset => .waitBusy1
  | .waitBusy1 => .configuring
  | .configuring => .transmittingFrame1
  | .transmittingFrame1 => .transmittingFrame2
  | .transmittingFrame2 => .waitBusy2
  | .waitBusy2 => .powerOn
  | .powerOn => .waitBusy3
  | .waitBusy3 => .refresh
  | .refresh => .waitBusy4
  | .waitBusy4 => .powerOff
  | .powerOff => .waitBusy5
  | .waitBusy5 => .idle

/-- Leaving the state `st` with its list done: INIT is set on leaving HwReset (R203), FUNCTIONAL on leaving
SetupFin (R168); WaitBusy5 is left by the completion step, a step of its own (R214, R215), for which SUB
moves past its one micro-operation. -/
def leave (st : St) (s : State) : State :=
  match st with
  | .hwReset => goto .waitBusy1 { s with init := true }
  | .setupFin => goto .idle { s with functional := true }
  | .waitBusy5 => nextSub s
  | .idle | .setupCheck | .otpCmd | .otpDummy | .otpProbe | .otpSkip | .otpData0 | .otpData1
  | .waitBusy1 | .configuring | .transmittingFrame1 | .transmittingFrame2 | .waitBusy2 | .powerOn
  | .waitBusy3 | .refresh | .waitBusy4 | .powerOff => goto (St.succ st) s

/-- What follows a micro-operation of a plain list (R24): the next one, or the state is left. -/
def advance (s t : State) : State :=
  match (remaining s).tail with
  | [] => leave s.st t
  | _ :: _ => nextSub t

/-- What follows the instruction that the state `s` fetched, `t` being the state it left: a host operation
has set the pc itself and its presentation ends (R250); a state of the reader acts on the answer of its
transaction (R159 to R166), and OtpCmd's command has raised BusTransactionError itself (R180; log entry
14); every other state goes down its list. -/
def sequence (s t : State) : State :=
  match s.st with
  | .idle => withdrawHostcmd t
  | .otpCmd =>
    match nextStatus s with
    | .ok => goto .otpDummy t
    | .err => calibrationFails t
  | .otpDummy => afterRead (nextStatus s) (goto .otpProbe) t
  | .otpProbe => afterRead (nextStatus s) (fun u => goto .otpSkip (selectBank (nextByte s) u)) t
  | .otpSkip => afterRead (nextStatus s) skipOne t
  | .otpData0 => afterRead (nextStatus s) (fun u => goto .otpData1 { u with psrTmp0 := nextByte s }) t
  | .otpData1 => afterRead (nextStatus s) (commit (nextByte s)) t
  | .setupCheck | .setupFin | .hwReset | .waitBusy1 | .configuring | .transmittingFrame1
  | .transmittingFrame2 | .waitBusy2 | .powerOn | .waitBusy3 | .refresh | .waitBusy4 | .powerOff
  | .waitBusy5 => advance s t

/-- The step of a state with no instruction to run: in Idle nothing happens, but that a reserved code's
presentation ends (R92); WaitBusy5 completes the cycle (R215); a state whose list is empty or done is left
at once (R162; log entry 12). -/
def bookkeep (s : State) : State :=
  match s.st with
  | .idle => withdrawHostcmd s
  | .waitBusy5 => complete s
  | .setupCheck | .otpCmd | .otpDummy | .otpProbe | .otpSkip | .otpData0 | .otpData1 | .setupFin
  | .hwReset | .waitBusy1 | .configuring | .transmittingFrame1 | .transmittingFrame2 | .waitBusy2
  | .powerOn | .waitBusy3 | .refresh | .waitBusy4 | .powerOff => leave s.st s

/-- Why a step has no meaning, if it has none: the host presents something while READY is 0 (R93, R250), or
a setup or a cycle is in flight under parameters CONFIG_OK refuses (log entry 17). -/
def stepRefusal (s : State) : Option Refusal :=
  if s.st = .idle then none
  else if s.inp.hostcmdValid then some .hostOperationInFlight
  else if s.cfg.paramsOk then none
  else some .configurationWithoutMeaning

end Sys2Proof.Machine
end

