-- ==== Sys2Proof/Machine/Placement.lean ====
section
/-! DEFINITION. Placing one instruction where the next step runs it (log entry 18): a host code on the
HOSTCMD port of a block at rest; every other instruction, which no port of the block takes, in the model's own
field `placed`, with the bus device attached that the instruction needs. -/

namespace Sys2Proof.Machine

/-- The device the rules have attached where they emit the instruction: none for ATTACH (R187), the device
itself for DETACH (R188), WR in a cycle (R38 item 3). -/
def deviceFor : Instr → Attached
  | .attach _ => .none
  | .detach d => Attached.ofDevice d
  | .setup | .update | .forceFull
  | .cmd _ | .dat _ | .bulk _ | .rd | .bwait | .delay _ | .rstset _ | .err _
  | .tset | .tsetEn | .psr | .border | .vcom | .dtm1 | .dtm2 | .pon | .drf | .pof | .otpRead => .wr

/-- A host code on a block at rest. -/
def placeHostCode (b : Byte) (s : State) : State :=
  { s with
    st := .idle, sub := 0, inp := { s.inp with hostcmd := b, hostcmdValid := true, placed := none } }

/-- An instruction of layer 2 or 3 for the next step. -/
def placeInstr (i : Instr) (s : State) : State :=
  { s with attached := deviceFor i, inp := { s.inp with placed := some i } }

/-- A word of the opcode table, placed by its format; a word of no format, or of one that the decoder
refuses, places nothing, but that a byte which names nothing is a reserved host code (R92). -/
def placeWord (nbits w : Nat) (s : State) : State :=
  match readTableWord nbits w with
  | .error _ => s
  | .ok (.host b) => placeHostCode b s
  | .ok (.panel a) =>
    match decode defaultAddrs (.panel a) with
    | .ok i => placeInstr i s
    | .error _ => placeHostCode a s
  | .ok (.record r) =>
    match decode defaultAddrs (.record r) with
    | .ok i => placeInstr i s
    | .error _ => s

end Sys2Proof.Machine
end

