-- ==== Sys2Proof/Machine/Step.lean ====
section
/-! DEFINITION. One step of the block (R12, R24): a micro-operation, a host operation's acceptance, or a
bookkeeping step that emits no event. -/

namespace Sys2Proof.Machine

/-- Run the instruction the state fetches and do what follows it; with none to run, the bookkeeping. -/
def blockStep (s : State) : Host.Outcome State Fault Refusal :=
  match stepRefusal s with
  | some r => .refused r
  | none =>
    match fetch s with
    | none => .next (bookkeep s)
    | some i => andThen (exec i s) (fun t => .next (sequence s t))

/-- The step: the block's own, or the instruction that `State.withFetchWord` placed, once, with the pc left
where it is (log entry 18). -/
def step (s : State) : Host.Outcome State Fault Refusal :=
  match s.inp.placed with
  | some i => exec i (takePlaced s)
  | none => blockStep s

/-- `s` with the instruction of a word of the opcode table where the next step runs it. -/
def State.withFetchWord (s : State) (nbits w : Nat) : State := placeWord nbits w s

end Sys2Proof.Machine
end

