-- ==== Sys2Proof/Machine/HostActions.lean ====
section
/-! DEFINITION. What the outside does to the machine between steps: the host's environment actions (R111,
R254), the ports it drives (R29), and block reset (R301).  None of these is a step of the block. -/

namespace Sys2Proof.Machine

/-- Present a code on HOSTCMD with HOSTCMD_VALID = 1 (R90). -/
def present (code : Byte) (s : State) : State :=
  { s with inp := { s.inp with hostcmd := code, hostcmdValid := true } }

/-- `TEMP := n` (R111). -/
def setTemp (n : Half) (s : State) : State := { s with inp := { s.inp with temp := n } }

/-- `FULL_UPDATE_EVERY := n` (R111). -/
def setFullUpdateEvery (n : Word) (s : State) : State :=
  { s with inp := { s.inp with fullUpdateEvery := n } }

/-- The panel's busy line (R29). -/
def setBusy (b : BusyLevel) (s : State) : State := { s with inp := { s.inp with busy := b } }

/-- `LF[a] := v` (R111, R254); LF has FRAME_BYTES bytes (R60). -/
def writeLf (a : Nat) (v : Byte) (s : State) : Host.Outcome State Fault Refusal :=
  if a < s.cfg.frameBytes then
    .next { s with inp := { s.inp with lf := writeByte s.inp.lf a v } }
  else .fault .addressOutsideFrame

/-- `LF := all 0x00` (R111): every byte of LF is a background byte. -/
def clearLf (s : State) : State :=
  { s with inp := { s.inp with lf := memoryOf s.cfg.frameBytes (fun _ => 0x00) } }

/-- The byte address of a logical pixel (R61). -/
def lfAddress (s : State) (x y : Nat) : Nat := y * s.cfg.lstride + x / 8

/-- `set pixel (x,y)` (R254). -/
def setPixel (x y : Nat) (s : State) : Host.Outcome State Fault Refusal :=
  writeLf (lfAddress s x y) (readByte s.inp.lf (lfAddress s x y) ||| (0x80#8 >>> (x % 8))) s

/-- `clear pixel (x,y)` (R254). -/
def clearPixel (x y : Nat) (s : State) : Host.Outcome State Fault Refusal :=
  writeLf (lfAddress s x y) (readByte s.inp.lf (lfAddress s x y) &&& ~~~(0x80#8 >>> (x % 8))) s

/-- The contents block reset leaves unspecified (R37, U4): any values. -/
structure Unspecified where
  tcode : Byte
  psrBase : PanelSettings
  psrTmp0 : Byte
  fue : Word
  pf : Memory
  hf : Memory
deriving DecidableEq, Repr

/-- Block reset (R301): every register at the value of R37's first column, what R37 leaves unspecified at
any values `u`, the ports as they are driven, no event (log entry 30). -/
def blockReset (u : Unspecified) (s : State) : State :=
  { State.resetWith s.cfg with
    tcode := u.tcode, psrBase := u.psrBase, psrTmp0 := u.psrTmp0, fue := u.fue, pf := u.pf, hf := u.hf,
    inp := s.inp, trace := s.trace }

end Sys2Proof.Machine
end

