-- ==== Sys2Proof/Safety.lean ====
section
/-! DEFINITION. The vocabulary of claims: runs, the host's contract, the invariant of `10_state.md` R38, and
traces with what only the environment decides erased. -/

namespace Sys2Proof.Machine

/-- `n` steps, stopping at the first fault or refusal. -/
def runSteps : Nat → State → Host.Outcome State Fault Refusal
  | 0, s => .next s
  | n + 1, s => andThen (step s) (runSteps n)

/-- The instructions of a list one after the other, stopping at the first fault or refusal: the big-step
reading of a list (R12). -/
def runInstrs : List Instr → State → Host.Outcome State Fault Refusal
  | [], s => .next s
  | i :: rest, s => andThen (exec i s) (runInstrs rest)

/-- The host presents nothing while READY is 0 (R93, R310). -/
def Quiet (s : State) : Prop := s.inp.hostcmdValid = true → s.st = .idle

/-- The ports of `s` after some answers have been drawn: only the answers still to come differ (R176). -/
def Inputs.drawn (i : Inputs) (statuses : List TxStatus) (readBytes : List Byte) (draws : Nat) : Inputs :=
  { i with statuses := statuses, readBytes := readBytes, draws := draws }

/-- An outcome with its next state changed by `f`. -/
def mapNext (f : State → State) (o : Host.Outcome State Fault Refusal) :
    Host.Outcome State Fault Refusal :=
  andThen o (fun t => .next (f t))

/-- The block stands at the start of the state `q` of the Calibration Reader as the rules reach it: CAL
attached, an accepted configuration, nothing presented or placed (R156, R157, R251). -/
structure ReaderAt (q : St) (s : State) : Prop where
  st : s.st = q
  sub : s.sub = 0
  device : s.attached = .cal
  params : s.cfg.paramsOk = true
  quiet : s.inp.hostcmdValid = false
  unplaced : s.inp.placed = none

/-- Is a host operation of code `b` presented to a block at rest (R250)? -/
def Presented (b : Byte) (s : State) : Prop :=
  s.st = .idle ∧ s.inp.hostcmdValid = true ∧ s.inp.hostcmd = b

/-- The number of pixels that are on, in a frame of `w` by `h` pixels (R62). -/
def onPixels (m : Memory) (w h : Nat) : Nat :=
  ((List.range h).map fun y => ((List.range w).filter fun x => pix m w x y).length).sum

/-- Where the reset line stands at each position of the block: low only between the low and the high writes
of HwReset (R38 item 5, R203). -/
def restingRst (st : St) (sub : Half) : Level :=
  if st = .hwReset ∧ (sub.toNat % 4 = 1 ∨ sub.toNat % 4 = 2) then .low else .high

/-- Which device is attached at each position of a setup (R156, R158, R168); that SUB is 0 all through
OtpSkip is the model's choice (log entry 36). -/
def setupDevice (st : St) (sub : Half) (d : Attached) : Prop :=
  match st with
  | .setupCheck => (sub = 0 ∧ d ≠ .cal) ∨ (sub = 1 ∧ d ≠ .cal) ∨ (sub = 2 ∧ d = .none)
  | .otpCmd | .otpDummy | .otpProbe | .otpSkip | .otpData0 | .otpData1 => sub = 0 ∧ d = .cal
  | .setupFin => (sub = 0 ∧ d = .cal) ∨ (sub = 1 ∧ d = .none)
  | .idle | .hwReset | .waitBusy1 | .configuring | .transmittingFrame1 | .transmittingFrame2
  | .waitBusy2 | .powerOn | .waitBusy3 | .refresh | .waitBusy4 | .powerOff | .waitBusy5 => True

/-- The invariant of the block (R38), with what each item needs to be kept by a step. -/
structure Inv (s : State) : Prop where
  /-- CAL_HZ < WR_HZ, and the hook moves neither a device nor the reset line (log entry 28). -/
  config : s.cfg.wf = true
  /-- No rule of the block places an instruction (log entry 18). -/
  unplaced : s.inp.placed = none
  /-- DC rests at data level (R177). -/
  restDc : s.dc = .data
  /-- R38 item 1. -/
  recorded : s.st = .idle → s.histValid = true → s.hf = s.pf
  /-- R38 item 2. -/
  uncounted : s.histValid = false → s.counter = 0
  /-- R38 item 2: every Fast cycle starts with HIST_VALID = 1. -/
  fastRecorded : s.st.inCycle = true → s.mode = .fast → s.histValid = true
  /-- R38 item 3. -/
  functionalReady : s.functional = true → s.st.inSetup = false →
    s.attached = .wr ∧ s.fue ≠ 0 ∧ s.cfg.paramsOk = true
  /-- R38 item 4. -/
  restDevice : s.st = .idle → s.functional = false →
    s.attached = .none ∨ (s.attached = .wr ∧ statusFlag s.status .configuration = true)
  /-- R38 item 5, and `pc = (Idle, 0)` at rest. -/
  restPc : s.st = .idle → s.sub = 0
  resetLine : s.rst = restingRst s.st s.sub
  /-- R38 item 6: HwReset is entered with INIT = 0 and every later cycle state has INIT = 1. -/
  hwResetFirst : s.st = .hwReset → s.init = false ∧ s.sub.toNat < 8
  cycleInit : s.st.inCycle = true → s.st ≠ .hwReset → s.init = true
  recordedInit : s.histValid = true → s.init = true
  cycleFunctional : s.st.inCycle = true → s.functional = true
  /-- A setup in flight has begun a new lifetime under an accepted configuration (R251). -/
  setupFresh : s.st.inSetup = true → s.functional = false ∧ s.init = false ∧ s.histValid = false ∧
    s.fue ≠ 0 ∧ s.cfg.paramsOk = true
  setupAttached : setupDevice s.st s.sub s.attached

/-- PF, HF and LF are in the canonical form, and PF and HF list addresses of the frame only (R32, R33). -/
structure FramesCanonical (s : State) : Prop where
  lf : memoryWf s.inp.lf = true
  pf : memoryWf s.pf = true
  hf : memoryWf s.hf = true
  pfWithin : memoryWithin s.cfg.frameBytes s.pf = true
  hfWithin : memoryWithin s.cfg.frameBytes s.hf = true

/-! ### Traces with the environment's answers erased (R216) -/

/-- An event with its status and its outcome erased; an ERR event is deleted. -/
def Event.erase : Event → Option Event
  | .cmd dc a _ => some (.cmd dc a .ok)
  | .dat dc b _ => some (.dat dc b .ok)
  | .bulk dc p _ => some (.bulk dc p .ok)
  | .rd dc tx v _ => some (.rd dc tx v .ok)
  | .bwait _ => some (.bwait .readySeen)
  | .delay t => some (.delay t)
  | .rstset l => some (.rstset l)
  | .attach d => some (.attach d)
  | .detach d => some (.detach d)
  | .err _ => none

/-- A trace with the environment's answers erased. -/
def erased (evs : List Event) : List Event := evs.filterMap Event.erase

/-- `CMD a`, erased: one command-byte transaction (R95). -/
def evCmd (a : Byte) : Event := .cmd .command a .ok

/-- `DAT b`, erased: one data-byte transaction (R95). -/
def evDat (b : Byte) : Event := .dat .data b .ok

/-- `BULK`, erased: one bulk transaction (R95). -/
def evBulk (payload : List Byte) : Event := .bulk .data payload .ok

/-- `BWAIT`, erased. -/
def evBwait : Event := .bwait .readySeen

/-- The zero frame (R63). -/
def zeroFrame (c : Config) : List Byte := List.replicate c.frameBytes 0x00

/-- `HWRESET` (R111). -/
def hwResetTrace (t : Half) : List Event :=
  [.rstset .low, .delay t, .rstset .high, .delay t, .rstset .low, .delay t, .rstset .high, .delay t]

/-- The part of R217's traces from the second BWAIT on, the same in every mode. -/
def powerTrace (ad : CmdAddrs) : List Event :=
  [evBwait, evCmd ad.pon, evCmd ad.pon, evBwait, evCmd ad.drf, evCmd ad.drf,
   evBwait, evCmd ad.pof, evCmd ad.pof, evBwait]

/-- R217's trace of a Full cycle without H: `t` is TCODE, `p0` and `p1` PSR_TX; the constant payload bytes are
the parameters R8 gives one value (log entry 32). -/
def fullTrace (c : Config) (t p0 p1 : Byte) (pf : List Byte) : List Event :=
  [evBwait, evCmd c.addrs.tset, evDat t, evCmd c.addrs.tsetEn, evDat c.tsetEnValue,
   evCmd c.addrs.psr, evDat p0, evDat p1,
   evCmd c.addrs.dtm1, evBulk pf, evCmd c.addrs.dtm2, evBulk (zeroFrame c)] ++ powerTrace c.addrs

/-- R217's trace of a Fast cycle with BVV = a. -/
def fastATrace (c : Config) (t p0 p1 : Byte) (pf hf : List Byte) : List Event :=
  [evBwait, evCmd c.addrs.tset, evDat t, evCmd c.addrs.tsetEn, evDat c.tsetEnValue,
   evCmd c.addrs.border, evDat c.borderValue, evCmd c.addrs.psr, evDat p0, evDat p1,
   evCmd c.addrs.vcom, evDat c.vcomValue,
   evCmd c.addrs.dtm1, evBulk pf, evCmd c.addrs.dtm2, evBulk hf] ++ powerTrace c.addrs

/-- R217's trace of a Fast cycle with BVV = b. -/
def fastBTrace (c : Config) (t p0 p1 : Byte) (pf hf : List Byte) : List Event :=
  [evBwait, evCmd c.addrs.tset, evDat t, evCmd c.addrs.tsetEn, evDat c.tsetEnValue,
   evCmd c.addrs.psr, evDat p0, evDat p1,
   evCmd c.addrs.border, evDat c.borderValue, evCmd c.addrs.border, evDat c.borderValue,
   evCmd c.addrs.dtm1, evBulk pf, evCmd c.addrs.dtm2, evBulk hf,
   evCmd c.addrs.vcom, evDat c.vcomValue, evCmd c.addrs.vcom, evDat c.vcomValue] ++ powerTrace c.addrs

/-- R217's trace of one cycle, chosen by the mode, BVV and INIT at acceptance. -/
def cycleTrace (c : Config) (init : Bool) (mode : Mode) (t p0 p1 : Byte) (pf hf : List Byte) :
    List Event :=
  (if init then [] else hwResetTrace c.tRst) ++
  match mode, c.bvv with
  | .full, _ => fullTrace c t p0 p1 pf
  | .fast, .a => fastATrace c t p0 p1 pf hf
  | .fast, .b => fastBTrace c t p0 p1 pf hf
  | .fast, .other => []

/-! ### What a group of instructions may change -/

/-- The frame of an instruction made of transactions: `t` is `s` but for DC at its rest level, the BUS_ERR
flag, the answers drawn and the events emitted. -/
def TransactionFrame (s t : State) : Prop :=
  t = { s with
        dc := .data, status := t.status, trace := t.trace,
        inp := { s.inp with
          statuses := t.inp.statuses, readBytes := t.inp.readBytes, draws := t.inp.draws } } ∧
  (t.status = s.status ∨ t.status = s.status ||| 0b0001#4) ∧
  s.trace <+: t.trace

/-- Every byte of PF, HF and LF reads as before. -/
def MemoryUnchanged (s t : State) : Prop :=
  ∀ a, readByte t.pf a = readByte s.pf a ∧ readByte t.hf a = readByte s.hf a ∧
    readByte t.inp.lf a = readByte s.inp.lf a

end Sys2Proof.Machine
end

