-- ==== Sys2Proof/Certificates/Slice0/Obligations.lean ====
section
/-! DEFINITION. The statements for the provers.

`inp := s.inp.drawn q b n` says of the input ports that only the environment's answers still to come may
differ.  How the model holds those answers is its own (log entry 7), so a statement leaves `q`, `b` and `n`
open. -/

open Sys2Proof Sys2Proof.Machine

/-! ### Micro-operations (43_sequencer.md) -/

/-- R180.  CMD a is one command-byte transaction at command level that leaves DC at data level; on ERR it
also sets BUS_ERR and emits ERR Bus.  `nextStatus s` is the status the environment answers. -/
def Obligations.CmdSendsOneCommandByte : Prop :=
  ∀ (a : Byte) (s : State),
    (s.attached ≠ .none → nextStatus s = .ok → ∃ q n,
      exec (.cmd a) s = .next { s with
        dc := .data, inp := s.inp.drawn q s.inp.readBytes n,
        trace := s.trace ++ [.cmd .command a .ok] }) ∧
    (s.attached ≠ .none → nextStatus s = .err → ∃ q n,
      exec (.cmd a) s = .next { s with
        dc := .data, status := s.status ||| 0b0001#4, inp := s.inp.drawn q s.inp.readBytes n,
        trace := s.trace ++ [.cmd .command a .err, .err .bus] })

/-- R181, for one byte: DAT b is one data-byte transaction at data level. -/
def Obligations.DatSendsOneDataByte : Prop :=
  ∀ (b : Byte) (s : State),
    (s.attached ≠ .none → nextStatus s = .ok → ∃ q n,
      exec (.dat b) s = .next { s with
        dc := .data, inp := s.inp.drawn q s.inp.readBytes n,
        trace := s.trace ++ [.dat .data b .ok] }) ∧
    (s.attached ≠ .none → nextStatus s = .err → ∃ q n,
      exec (.dat b) s = .next { s with
        dc := .data, status := s.status ||| 0b0001#4, inp := s.inp.drawn q s.inp.readBytes n,
        trace := s.trace ++ [.dat .data b .err, .err .bus] })

/-- R181.  `send_data` sends every byte of its list in its own transaction, whatever the environment
answers for the bytes before it, and raises one BusTransactionError per failing byte.  That the answers are
taken from the front of the list `s.inp.statuses` is the model's choice (log entry 7). -/
def Obligations.SendDataSendsEveryByte : Prop :=
  ∀ (bytes : List Byte) (s : State), s.attached ≠ .none → bytes ≠ [] →
    ∃ t evs sts,
      sendData bytes s = .next t ∧ t.trace = s.trace ++ evs ∧ sts.length = bytes.length ∧
      evs = (List.zipWith (fun b st =>
        match st with
        | .ok => [Event.dat .data b .ok]
        | .err => [Event.dat .data b .err, Event.err .bus]) bytes sts).flatten ∧
      t.status = (if TxStatus.err ∈ sts then s.status ||| 0b0001#4 else s.status) ∧
      (∀ answers rest, s.inp.statuses = answers ++ rest → answers.length = bytes.length →
        sts = answers ∧ t.inp.statuses = rest) ∧
      TransactionFrame s t

/-- R182.  BULK is one transaction whose payload is exactly the FRAME_BYTES bytes of its source in
ascending address: PF, HF, or zeros. -/
def Obligations.BulkSendsTheWholeFrame : Prop :=
  ∀ (src : FrameSrc) (s : State), s.attached ≠ .none →
    ∃ payload q n,
      payload.length = s.cfg.frameBytes ∧
      (∀ a, a < s.cfg.frameBytes → payload[a]? = some
        (match src with
          | .pf => readByte s.pf a
          | .hf => readByte s.hf a
          | .zf => 0x00)) ∧
      (nextStatus s = .ok → exec (.bulk src) s = .next { s with
        dc := .data, inp := s.inp.drawn q s.inp.readBytes n,
        trace := s.trace ++ [.bulk .data payload .ok] }) ∧
      (nextStatus s = .err → exec (.bulk src) s = .next { s with
        dc := .data, status := s.status ||| 0b0001#4, inp := s.inp.drawn q s.inp.readBytes n,
        trace := s.trace ++ [.bulk .data payload .err, .err .bus] })

/-- R183.  RD is one read transaction that transmits 0x00 at data level and raises no error itself. -/
def Obligations.RdReadsOneByte : Prop :=
  ∀ (s : State), s.attached ≠ .none → ∃ q b n,
    exec .rd s = .next { s with
      dc := .data, inp := s.inp.drawn q b n,
      trace := s.trace ++ [.rd .data 0x00 (nextByte s) (nextStatus s)] }

/-- R185 in its untimed reading, R273.  BWAIT needs no device and ends under either outcome, which
differ by the BUSY_TO flag and the ERR event alone; if BUSY is ready when the wait begins the outcome is
READY_SEEN and nothing is drawn. -/
def Obligations.BwaitEndsUnderEitherOutcome : Prop :=
  ∀ (s : State),
    (s.inp.busy = .ready →
      exec .bwait s = .next { s with trace := s.trace ++ [.bwait .readySeen] }) ∧
    (s.inp.busy = .notReady → nextOutcome s = .readySeen → ∃ w n,
      exec .bwait s = .next { s with
        inp := { s.inp with waitOutcomes := w, draws := n },
        trace := s.trace ++ [.bwait .readySeen] }) ∧
    (s.inp.busy = .notReady → nextOutcome s = .timeout → ∃ w n,
      exec .bwait s = .next { s with
        status := s.status ||| 0b0010#4, inp := { s.inp with waitOutcomes := w, draws := n },
        trace := s.trace ++ [.bwait .timeout, .err .busyTimeout] })

/-- R186 and R189.  RSTSET drives the reset line and DELAY only takes time; each emits its event, also
when the line already has the level, and changes nothing else. -/
def Obligations.PinAndTimeMicroOperations : Prop :=
  (∀ (l : Level) (s : State),
    exec (.rstset l) s = .next { s with rst := l, trace := s.trace ++ [.rstset l] }) ∧
  (∀ (t : Half) (s : State), exec (.delay t) s = .next { s with trace := s.trace ++ [.delay t] })

/-- R187 and R188.  ATTACH has a step exactly when no device is attached, DETACH d exactly when d is;
otherwise the machine is stuck (U23). -/
def Obligations.AttachAndDetachKeepOneDevice : Prop :=
  ∀ (s : State),
    (s.attached = .none →
      exec (.attach .cal) s = .next { s with attached := .cal, trace := s.trace ++ [.attach .cal] } ∧
      exec (.attach .wr) s = .next { s with attached := .wr, trace := s.trace ++ [.attach .wr] }) ∧
    (s.attached ≠ .none → ∀ d, exec (.attach d) s = .fault .attachWhileAttached) ∧
    (s.attached = .cal →
      exec (.detach .cal) s = .next { s with attached := .none, trace := s.trace ++ [.detach .cal] }) ∧
    (s.attached = .wr →
      exec (.detach .wr) s = .next { s with attached := .none, trace := s.trace ++ [.detach .wr] }) ∧
    (s.attached ≠ .cal → exec (.detach .cal) s = .fault .detachNotAttached) ∧
    (s.attached ≠ .wr → exec (.detach .wr) s = .fault .detachNotAttached)

/-- R184 (1), U24.  No bus transaction, alone or in a panel command, has a step without a device. -/
def Obligations.BusOperationsNeedADevice : Prop :=
  ∀ (i : Instr) (s : State), s.attached = .none →
    ((∃ a, i = .cmd a) ∨ (∃ b, i = .dat b) ∨ (∃ src, i = .bulk src) ∨ i = .rd ∨
      i ∈ [Instr.tset, .tsetEn, .psr, .border, .vcom, .dtm1, .dtm2, .pon, .drf, .pof, .otpRead]) →
    exec i s = .fault .transactionWithoutDevice

/-- R11, R26, R271.  An error occurrence sets its kind's flag (BUS_ERR bit 0, BUSY_TO bit 1, CAL_FAIL bit
2, CONFIG_ERR bit 3), emits ERR of that kind, and leaves the other flags and all else as they are. -/
def Obligations.ErrSetsItsFlagAndEmits : Prop :=
  ∀ (k : ErrKind) (s : State), ∃ st,
    exec (.err k) s = .next { s with status := st, trace := s.trace ++ [.err k] } ∧
    ∀ j : Nat, j < 4 → st.getLsbD j = (s.status.getLsbD j || decide (j =
      match k with
      | .bus => 0
      | .busyTimeout => 1
      | .calibration => 2
      | .configuration => 3))

/-! ### Panel commands (30_encoding.md) -/

/-- R96, R101, R102, R104, R105, R108.  TSET, TSET_EN, BORDER and VCOM send their address byte and one
payload byte, OTP_READ its address byte alone.  The three constants are parameters, to which R8 gives the
values 0x02, 0x27 and 0x07 (log entry 32). -/
def Obligations.ShortCommandsSendTheirPayload : Prop :=
  ∀ (s : State), s.attached ≠ .none →
    ∀ p ∈ [(Instr.tset, [evCmd s.cfg.addrs.tset, evDat s.tcode]),
           (.tsetEn, [evCmd s.cfg.addrs.tsetEn, evDat s.cfg.tsetEnValue]),
           (.border, [evCmd s.cfg.addrs.border, evDat s.cfg.borderValue]),
           (.vcom, [evCmd s.cfg.addrs.vcom, evDat s.cfg.vcomValue]),
           (.otpRead, [evCmd s.cfg.addrs.otpRead])],
      (∃ t evs, exec p.1 s = .next t ∧ t.trace = s.trace ++ evs ∧ erased evs = p.2 ∧
        TransactionFrame s t) ∧
      (s.cfg.HasSpecConstants →
        s.cfg.tsetEnValue = 0x02 ∧ s.cfg.borderValue = 0x27 ∧ s.cfg.vcomValue = 0x07)

/-- R103.  PSR sends PSR_BASE in Full mode, and in Fast mode PSR_BASE with PSR0_FAST set in byte 0 and
PSR1_FAST in byte 1, which are 0x10 and 0x02; byte 0 goes first and PSR_BASE stays as it is. -/
def Obligations.PsrSendsTheSettingsOfTheMode : Prop :=
  ∀ (s : State), s.attached ≠ .none →
    (s.cfg.HasSpecConstants → s.cfg.psr0Fast = 0x10 ∧ s.cfg.psr1Fast = 0x02) ∧
    (s.mode = .full → ∃ t evs, exec .psr s = .next t ∧ t.trace = s.trace ++ evs ∧
      erased evs = [evCmd s.cfg.addrs.psr, evDat s.psrBase.byte0, evDat s.psrBase.byte1] ∧
      TransactionFrame s t) ∧
    (s.mode = .fast → ∃ t evs, exec .psr s = .next t ∧ t.trace = s.trace ++ evs ∧
      erased evs = [evCmd s.cfg.addrs.psr, evDat (s.psrBase.byte0 ||| s.cfg.psr0Fast),
        evDat (s.psrBase.byte1 ||| s.cfg.psr1Fast)] ∧
      TransactionFrame s t)

/-- R106.  DTM1 sends PF; DTM2 sends zeros in Full mode and in Fast mode `previous()`: HF once a frame has
been recorded, zeros before. -/
def Obligations.FrameCommandsSendTheirFrames : Prop :=
  ∀ (s : State), s.attached ≠ .none →
    (∃ t evs, exec .dtm1 s = .next t ∧ t.trace = s.trace ++ evs ∧
      erased evs = [evCmd s.cfg.addrs.dtm1, evBulk (frameOf s.cfg.frameBytes s.pf)] ∧
      TransactionFrame s t) ∧
    (∃ t evs, exec .dtm2 s = .next t ∧ t.trace = s.trace ++ evs ∧
      erased evs = [evCmd s.cfg.addrs.dtm2, evBulk
        (if s.mode = .fast ∧ s.histValid = true then frameOf s.cfg.frameBytes s.hf
          else zeroFrame s.cfg)] ∧
      TransactionFrame s t)

/-- R96, R107, R209, R211, R213, R314.  PON, DRF and POF are one command byte each, without a payload.  The
states PowerOn, Refresh and PowerOff send theirs twice in two separate transactions, the second whatever
becomes of the first, and nothing else happens there; then the next busy wait begins.  That the state is left
in the step of the second is the model's choice (log entry 12). -/
def Obligations.PowerCommandsAreSentTwice : Prop :=
  ∀ (s : State), s.attached ≠ .none →
    ∀ p ∈ [(Instr.pon, s.cfg.addrs.pon, St.powerOn, St.waitBusy3),
           (.drf, s.cfg.addrs.drf, .refresh, .waitBusy4), (.pof, s.cfg.addrs.pof, .powerOff, .waitBusy5)],
      (∃ t evs, exec p.1 s = .next t ∧ t.trace = s.trace ++ evs ∧
        erased evs = [evCmd p.2.1] ∧ TransactionFrame s t) ∧
      (s.st = p.2.2.1 → s.sub = 0 → s.cfg.paramsOk = true → s.inp.hostcmdValid = false →
        s.inp.placed = none →
        ∃ t evs, runSteps 2 s = .next t ∧ t.trace = s.trace ++ evs ∧
          erased evs = [evCmd p.2.1, evCmd p.2.1] ∧ t.st = p.2.2.2 ∧ t.sub = 0 ∧
          TransactionFrame s { t with st := s.st, sub := s.sub })

/-- R12, R111.  The meaning of a panel command is the composition of the micro-operations that the macros
of R111 expand it to. -/
def Obligations.PanelCommandsAreTheirMicroOperations : Prop :=
  ∀ (s : State) (p0 p1 : Byte) (src : FrameSrc),
    (p0, p1) = (match s.mode with
      | .full => (s.psrBase.byte0, s.psrBase.byte1)
      | .fast => (s.psrBase.byte0 ||| s.cfg.psr0Fast, s.psrBase.byte1 ||| s.cfg.psr1Fast)) →
    src = (if s.mode = .fast ∧ s.histValid = true then .hf else .zf) →
    exec .tset s = runInstrs [.cmd s.cfg.addrs.tset, .dat s.tcode] s ∧
    exec .tsetEn s = runInstrs [.cmd s.cfg.addrs.tsetEn, .dat s.cfg.tsetEnValue] s ∧
    exec .psr s = runInstrs [.cmd s.cfg.addrs.psr, .dat p0, .dat p1] s ∧
    exec .border s = runInstrs [.cmd s.cfg.addrs.border, .dat s.cfg.borderValue] s ∧
    exec .vcom s = runInstrs [.cmd s.cfg.addrs.vcom, .dat s.cfg.vcomValue] s ∧
    exec .dtm1 s = runInstrs [.cmd s.cfg.addrs.dtm1, .bulk .pf] s ∧
    exec .dtm2 s = runInstrs [.cmd s.cfg.addrs.dtm2, .bulk src] s ∧
    exec .pon s = runInstrs [.cmd s.cfg.addrs.pon] s ∧
    exec .drf s = runInstrs [.cmd s.cfg.addrs.drf] s ∧
    exec .pof s = runInstrs [.cmd s.cfg.addrs.pof] s ∧
    exec .otpRead s = runInstrs [.cmd s.cfg.addrs.otpRead] s

/-! ### Frames -/

/-- R21, R184, R272.  A bus micro-operation or a panel command changes DC (back to its rest level), the
BUS_ERR flag, the answers still to come and the trace, and nothing else; no memory byte changes. -/
def Obligations.BusOperationsFrame : Prop :=
  ∀ (i : Instr) (s t : State),
    ((∃ a, i = .cmd a) ∨ (∃ b, i = .dat b) ∨ (∃ src, i = .bulk src) ∨ i = .rd ∨
      i ∈ [Instr.tset, .tsetEn, .psr, .border, .vcom, .dtm1, .dtm2, .pon, .drf, .pof, .otpRead]) →
    exec i s = .next t → TransactionFrame s t ∧ MemoryUnchanged s t

/-- R21, R185 to R189, R271.  BWAIT, DELAY, RSTSET, ATTACH, DETACH and ERR change only what their rules
name, beside the trace; no memory byte changes. -/
def Obligations.PinWaitAndErrFrame : Prop :=
  ∀ (i : Instr) (s t : State), exec i s = .next t →
    (i = .bwait → t = { s with
      status := t.status, trace := t.trace,
      inp := { s.inp with waitOutcomes := t.inp.waitOutcomes, draws := t.inp.draws } } ∧
      (∀ k, k ≠ .busyTimeout → statusFlag t.status k = statusFlag s.status k) ∧ MemoryUnchanged s t) ∧
    ((∃ d, i = .delay d) → t = { s with trace := t.trace } ∧ MemoryUnchanged s t) ∧
    ((∃ l, i = .rstset l) → t = { s with rst := t.rst, trace := t.trace } ∧ MemoryUnchanged s t) ∧
    ((∃ d, i = .attach d ∨ i = .detach d) →
      t = { s with attached := t.attached, trace := t.trace } ∧ MemoryUnchanged s t) ∧
    (∀ k, i = .err k → t = { s with status := t.status, trace := t.trace } ∧
      (∀ j, j ≠ k → statusFlag t.status j = statusFlag s.status j) ∧ MemoryUnchanged s t)

/-- R201, R251, R253.  What the acceptance step of each host operation leaves unchanged.  UPDATE stores to
the FRAME_BYTES bytes of PF and to nothing else; the other two store nothing. -/
def Obligations.HostOperationsFrame : Prop :=
  ∀ (s t : State),
    (exec .setup s = .next t →
      t = { s with
        st := t.st, sub := t.sub, functional := t.functional, init := t.init,
        histValid := t.histValid, counter := t.counter, fue := t.fue, status := t.status,
        dc := t.dc, trace := t.trace } ∧ MemoryUnchanged s t) ∧
    (exec .update s = .next t →
      t = { s with
        st := t.st, sub := t.sub, mode := t.mode, tcode := t.tcode, status := t.status, pf := t.pf } ∧
      (∀ k, k = .calibration ∨ k = .configuration → statusFlag t.status k = statusFlag s.status k) ∧
      (∀ a, readByte t.hf a = readByte s.hf a ∧ readByte t.inp.lf a = readByte s.inp.lf a) ∧
      (memoryWithin s.cfg.frameBytes s.pf = true →
        ∀ a, s.cfg.frameBytes ≤ a → readByte t.pf a = readByte s.pf a)) ∧
    (exec .forceFull s = .next t → t = { s with counter := t.counter } ∧ MemoryUnchanged s t)

/-! ### Host operations (46_host_ops.md) -/

/-- R251, the acceptance step of SETUP.  Under CONFIG_OK a new setup lifetime begins at (SetupCheck, 0);
otherwise ConfigurationError is raised and nothing but STATUS and FUNCTIONAL is written. -/
def Obligations.SetupAcceptanceStep : Prop :=
  ∀ (s : State), s.st = .idle →
    (s.cfg.configOk s.inp.fullUpdateEvery = true →
      exec .setup s = .next { s with
        st := .setupCheck, sub := 0, status := 0b0000#4, functional := false,
        fue := s.inp.fullUpdateEvery, counter := 0, init := false, histValid := false,
        dc := .data }) ∧
    (s.cfg.configOk s.inp.fullUpdateEvery = false →
      exec .setup s = .next { s with
        sub := 0, status := 0b1000#4, functional := false,
        trace := s.trace ++ [.err .configuration] })

/-- R255, R7.  CONFIG_OK is exactly the conjunction the rule lists, GEOMETRY_OK written out. -/
def Obligations.ConfigOkIsItsConjuncts : Prop :=
  ∀ (c : Config) (f : Word), c.configOk f = true ↔
    (c.logicalH = c.panelW ∧ c.logicalW = c.panelH ∧ c.panelW % 8 = 0 ∧ c.panelH % 8 = 0 ∧
      0 < c.panelW ∧ 0 < c.panelH) ∧ 1 ≤ f.toNat ∧
    1 ≤ c.otpBank0Start ∧ 1 ≤ c.otpBank1Start ∧ c.otpBank0Start < 2 ^ 16 ∧ c.otpBank1Start < 2 ^ 16 ∧
    (c.bvv = .a ∨ c.bvv = .b) ∧ c.pinsPresent = true

/-- R201 and R252.  UPDATE does nothing while FUNCTIONAL is 0; otherwise its acceptance step clears BUS_ERR
and BUSY_TO, writes PF, MODE and TCODE, and goes to HwReset or WaitBusy1 by INIT, with no event.  That the
sampled FUE passed CONFIG_OK holds of every functional block at rest (StepKeepsTheInvariant, R38 item 3). -/
def Obligations.UpdateAcceptanceStep : Prop :=
  ∀ (s : State), s.st = .idle →
    (s.functional = false → exec .update s = .next s) ∧
    (s.functional = true → s.cfg.configOk s.fue = true →
      exec .update s = .next { s with
        st := if s.init then .waitBusy1 else .hwReset, sub := 0,
        status := s.status &&& 0b1100#4, pf := rot s.cfg s.inp.lf,
        mode := modeSel s.counter s.fue,
        tcode := tempCode s.cfg s.inp.temp (modeSel s.counter s.fue) })

/-- R253.  FORCE_FULL writes COUNTER <- 0 and nothing else, functional or not; issued twice it is the same
as once; the next UPDATE is a Full cycle whatever the counter was, and FORCE_FULL brings no hardware
reset. -/
def Obligations.ForceFullZeroesTheCounter : Prop :=
  ∀ (s : State), s.st = .idle →
    exec .forceFull s = .next { s with counter := 0 } ∧
    runInstrs [.forceFull, .forceFull] s = exec .forceFull s ∧
    (s.functional = true → s.cfg.configOk s.fue = true →
      ∃ t, runInstrs [.forceFull, .update] s = .next t ∧ t.mode = .full ∧ t.counter = 0 ∧
        t.init = s.init ∧ (s.init = true → t.st = .waitBusy1))

/-- R93, R250, and log entries 10 and 17.  What the model refuses, by name: anything the host presents while
READY is 0, whatever the code, and each of the three operations there; and, in the states no run reaches
where no SETUP can have accepted the parameters or FUE, UPDATE and every step of a setup or a cycle. -/
def Obligations.RefusedRuns : Prop :=
  ∀ (s : State),
    (s.st ≠ .idle →
      (s.inp.placed = none → s.inp.hostcmdValid = true →
        step s = .refused .hostOperationInFlight) ∧
      (s.inp.placed = none → s.inp.hostcmdValid = false → s.cfg.paramsOk = false →
        step s = .refused .configurationWithoutMeaning) ∧
      ∀ i ∈ [Instr.setup, .update, .forceFull], exec i s = .refused .hostOperationInFlight) ∧
    (s.st = .idle → s.functional = true → s.cfg.configOk s.fue = false →
      exec .update s = .refused .configurationWithoutMeaning)

/-- R92.  A reserved host code presented while READY is 1 is ignored: no register, no memory and no event
changes, and READY stays 1. -/
def Obligations.ReservedHostCodesAreIgnored : Prop :=
  ∀ (s : State), s.st = .idle → s.inp.placed = none → s.inp.hostcmdValid = true →
    s.inp.hostcmd = 0x00 ∨ 0x04 ≤ s.inp.hostcmd.toNat →
    ∃ v, step s = .next { s with inp := { s.inp with hostcmdValid := v } }

/-! ### Policy (41_policy.md) -/

/-- R140.  Full exactly when the counter is 0 or a multiple of FUE, which includes the counter 0. -/
def Obligations.ModeSelectionFollowsTheCadence : Prop :=
  ∀ (counter fue : Word), fue ≠ 0 →
    (modeSel counter fue = .full ↔ counter.toNat % fue.toNat = 0) ∧
    (modeSel counter fue = .fast ↔ counter.toNat % fue.toNat ≠ 0) ∧
    modeSel 0 fue = .full ∧ modeSel counter 1 = .full

/-- R142, R143.  The Full code is the temperature modulo 256; the Fast code is the Full code with the bits of
FAST_FLAG set.  FAST_FLAG is 0x40, so the Fast code has bit 6 forced to 1 and every other bit as in the Full
code, and the two are equal exactly when bit 6 was set. -/
def Obligations.TemperatureCodes : Prop :=
  ∀ (c : Config) (temp : Half),
    ((tempCode c temp .full).toNat : Int) = temp.toInt % 256 ∧
    tempCode c temp .fast = tempCode c temp .full ||| c.fastFlag ∧
    (c.HasSpecConstants →
      (∀ j, j < 8 → (tempCode c temp .fast).getLsbD j =
        (decide (j = 6) || (tempCode c temp .full).getLsbD j)) ∧
      (tempCode c temp .fast = tempCode c temp .full ↔ (tempCode c temp .full).getLsbD 6 = true))

/-! ### Rotator (40_rotator.md) -/

/-- R130.  Under GEOMETRY_OK the physical pixel (LOGICAL_H - 1 - y, x) of PF is on exactly when the logical
pixel (x, y) of LF is, and PF lists no address beyond its FRAME_BYTES bytes.  That PF is in the canonical
form of memories is the model's choice of form (log entry 33). -/
def Obligations.RotatorMapsEveryLogicalPixel : Prop :=
  ∀ (c : Config) (lf : Memory), c.geometryOk = true →
    (∀ x y, x < c.logicalW → y < c.logicalH →
      pix (rot c lf) c.panelW (c.logicalH - 1 - y) x = pix lf c.logicalW x y) ∧
    memoryWithin c.frameBytes (rot c lf) = true ∧ memoryWf (rot c lf) = true

/-- R132.  The closed form per destination bit. -/
def Obligations.RotatorClosedForm : Prop :=
  ∀ (c : Config) (lf : Memory) (i b : Nat), c.geometryOk = true → i < c.frameBytes → b < 8 →
    (readByte (rot c lf) i).getLsbD b =
      (readByte lf ((c.logicalH - 1 - ((i % (c.panelW / 8)) * 8 + (7 - b))) * (c.logicalW / 8) +
        (i / (c.panelW / 8)) / 8)).getLsbD (7 - (i / (c.panelW / 8)) % 8)

/-- R133.  The map is a bijection of pixels: PF has as many pixels on as LF, and two logical frames with
the same PF agree on every logical pixel. -/
def Obligations.RotatorIsABijection : Prop :=
  ∀ (c : Config) (lf lf' : Memory), c.geometryOk = true →
    onPixels (rot c lf) c.panelW c.panelH = onPixels lf c.logicalW c.logicalH ∧
    (rot c lf = rot c lf' → ∀ x y, x < c.logicalW → y < c.logicalH →
      pix lf c.logicalW x y = pix lf' c.logicalW x y)

/-- Two frame memories in the canonical form that read the same everywhere are the same data (log entry
33). -/
def Obligations.EqualReadingMemoriesAreEqual : Prop :=
  ∀ (m m' : Memory), memoryWf m = true → memoryWf m' = true →
    (∀ a, readByte m a = readByte m' a) → m = m'

/-! ### Calibration Reader (42_otp_reader.md) -/

/-- R158.  SetupCheck drives the reset line high, releases the device left attached if there is one, and
attaches CAL, in that order; its successor is OtpCmd.  That the state is left in the step of its last
micro-operation is the model's choice (log entry 12). -/
def Obligations.SetupCheckReleasesThenAttaches : Prop :=
  ∀ (s : State), s.st = .setupCheck → s.sub = 0 → s.cfg.paramsOk = true →
    s.inp.hostcmdValid = false → s.inp.placed = none →
    (s.attached = .none → runSteps 2 s = .next { s with
      st := .otpCmd, sub := 0, rst := .high, attached := .cal,
      trace := s.trace ++ [.rstset .high, .attach .cal] }) ∧
    (∀ d, s.attached = (match d with | .cal => .cal | .wr => .wr) → runSteps 3 s = .next { s with
      st := .otpCmd, sub := 0, rst := .high, attached := .cal,
      trace := s.trace ++ [.rstset .high, .detach d, .attach .cal] })

/-- R159, R160.  A good command byte leads to OtpDummy and a good dummy read to OtpProbe, whatever byte it
returns; neither writes a register. -/
def Obligations.OtpCommandAndDummyRead : Prop :=
  ∀ (s : State), nextStatus s = .ok →
    (ReaderAt .otpCmd s → ∃ q n, step s = .next { s with
      st := .otpDummy, dc := .data, inp := s.inp.drawn q s.inp.readBytes n,
      trace := s.trace ++ [.cmd .command s.cfg.addrs.otpRead .ok] }) ∧
    (ReaderAt .otpDummy s → ∃ q b n, step s = .next { s with
      st := .otpProbe, dc := .data, inp := s.inp.drawn q b n,
      trace := s.trace ++ [.rd .data 0x00 (nextByte s) .ok] })

/-- R161.  The probe byte OTP_SENTINEL, 0xA5, selects bank 0, each other byte bank 1, and OTP_SKIP becomes
the start address minus 1; on ERR neither is written.  That the transition, the writes and, on ERR, the failure
step are in the step of the read is an inference of the model (log entry 13). -/
def Obligations.OtpProbeSelectsTheBank : Prop :=
  ∀ (s : State), ReaderAt .otpProbe s →
    (s.cfg.HasSpecConstants → s.cfg.otpSentinel = 0xA5) ∧
    (nextStatus s = .ok → ∃ skip q b n,
      BitVec.toNat (skip : Half) =
        (if nextByte s = s.cfg.otpSentinel then s.cfg.otpBank0Start else s.cfg.otpBank1Start) - 1 ∧
      step s = .next { s with
        st := .otpSkip, dc := .data,
        otpBank := if nextByte s = s.cfg.otpSentinel then .bank0 else .bank1, otpSkip := skip,
        inp := s.inp.drawn q b n,
        trace := s.trace ++ [.rd .data 0x00 (nextByte s) .ok] }) ∧
    (nextStatus s = .err → ∃ t, step s = .next t ∧ t.st = .setupFin ∧
      t.otpBank = s.otpBank ∧ t.otpSkip = s.otpSkip)

/-- R162.  OtpSkip reads and discards one byte a step while OTP_SKIP is positive and counts it down; at 0
it is left at once and emits nothing; an ERR ends it, the remaining reads not made.  That the failure step of
R167 is in the step of the read is an inference of the model (log entry 13), that an empty state is left by a
silent step its choice (log entry 12), and so is that SUB stays 0 meanwhile (log entry 36). -/
def Obligations.OtpSkipDiscardsReads : Prop :=
  ∀ (s : State), ReaderAt .otpSkip s →
    (s.otpSkip = 0 → step s = .next { s with st := .otpData0 }) ∧
    (s.otpSkip ≠ 0 → nextStatus s = .ok → ∃ q b n, step s = .next { s with
      st := if s.otpSkip = 1 then .otpData0 else .otpSkip, dc := .data,
      otpSkip := s.otpSkip - 1, inp := s.inp.drawn q b n,
      trace := s.trace ++ [.rd .data 0x00 (nextByte s) .ok] }) ∧
    (s.otpSkip ≠ 0 → nextStatus s = .err → ∃ t, step s = .next t ∧ t.st = .setupFin ∧
      t.otpSkip = s.otpSkip)

/-- R164, R165, R166.  The first data byte goes to PSR_TMP0; with the second the pair is committed to
PSR_BASE if it is plausible, else the failure step is taken without a bus error. -/
def Obligations.OtpDataBytesAreCommitted : Prop :=
  ∀ (s : State),
    (ReaderAt .otpData0 s → nextStatus s = .ok → ∃ q b n, step s = .next { s with
      st := .otpData1, dc := .data, psrTmp0 := nextByte s, inp := s.inp.drawn q b n,
      trace := s.trace ++ [.rd .data 0x00 (nextByte s) .ok] }) ∧
    (ReaderAt .otpData1 s → nextStatus s = .ok →
      (⟨s.psrTmp0, nextByte s⟩ : PanelSettings) ∉ s.cfg.psrImplausible → ∃ q b n,
      step s = .next { s with
        st := .setupFin, dc := .data, psrBase := ⟨s.psrTmp0, nextByte s⟩, inp := s.inp.drawn q b n,
        trace := s.trace ++ [.rd .data 0x00 (nextByte s) .ok] }) ∧
    (ReaderAt .otpData1 s → nextStatus s = .ok →
      (⟨s.psrTmp0, nextByte s⟩ : PanelSettings) ∈ s.cfg.psrImplausible → ∃ q b n,
      step s = .next { s with
        st := .setupFin, dc := .data, psrBase := s.cfg.psrDefault, inp := s.inp.drawn q b n,
        status := s.status ||| 0b0100#4,
        trace := s.trace ++ [.rd .data 0x00 (nextByte s) .ok, .err .calibration] })

/-- R167.  On a status ERR in any of the six states of the reader: BUS_ERR and CAL_FAIL set, ERR Bus and
then ERR Calibration emitted, PSR_BASE at PSR_DEFAULT, and the reader ends in SetupFin.  That all this is in
the step of the transaction is an inference of the model (log entry 13), and so is that OtpCmd emits ERR Bus
once (log entry 14). -/
def Obligations.ReaderFailsOnTheFirstError : Prop :=
  ∀ (q : St) (s : State),
    q ∈ [St.otpCmd, .otpDummy, .otpProbe, .otpSkip, .otpData0, .otpData1] → ReaderAt q s →
    nextStatus s = .err → (q = .otpSkip → s.otpSkip ≠ 0) →
    ∃ qs b n, step s = .next { s with
      st := .setupFin, dc := .data, psrBase := s.cfg.psrDefault, status := s.status ||| 0b0101#4,
      inp := s.inp.drawn qs b n,
      trace := s.trace ++
        [if q = .otpCmd then .cmd .command s.cfg.addrs.otpRead .err
          else .rd .data 0x00 (nextByte s) .err,
         .err .bus, .err .calibration] }

/-- R168.  SetupFin releases CAL, attaches WR and makes the block functional, on every path.  That Idle is
reached in the step of the second micro-operation is the model's choice (log entry 12). -/
def Obligations.SetupFinHandsOverToWr : Prop :=
  ∀ (s : State), ReaderAt .setupFin s → runSteps 2 s = .next { s with
    st := .idle, functional := true, attached := .wr,
    trace := s.trace ++ [.detach .cal, .attach .wr] }

/-- R163, R169.  A whole SETUP without an error: after the command it reads S + 3 bytes, S the selected
start address, and ends at rest, functional, with the two data bytes in PSR_BASE and STATUS 0.  The
environment's answers are listed in State as log entry 7 says.  The run goes on past the acceptance step
because that step ends the presentation of SETUP, which is the model's choice (log entry 9); the number of
steps rests on log entries 12 and 13. -/
def Obligations.SetupReadsThePanelSettings : Prop :=
  ∀ (s : State) (dummy probe d0 d1 : Byte) (skipped more : List Byte) (rest : List TxStatus)
    (start : Nat),
    Inv s → Presented 0x01 s → s.cfg.configOk s.inp.fullUpdateEvery = true →
    start = (if probe = s.cfg.otpSentinel then s.cfg.otpBank0Start else s.cfg.otpBank1Start) →
    skipped.length = start - 1 →
    s.inp.readBytes = dummy :: probe :: (skipped ++ d0 :: d1 :: more) →
    s.inp.statuses = List.replicate (start + 4) .ok ++ rest →
    (⟨d0, d1⟩ : PanelSettings) ∉ s.cfg.psrImplausible →
    ∃ n t, n ≤ start + 11 ∧ runSteps n s = .next t ∧
      t.trace = s.trace ++ [.rstset .high] ++
        (if s.attached = .wr then [.detach .wr] else []) ++
        [.attach .cal, .cmd .command s.cfg.addrs.otpRead .ok] ++
        (dummy :: probe :: (skipped ++ [d0, d1])).map (fun v => .rd .data 0x00 v .ok) ++
        [.detach .cal, .attach .wr] ∧
      t = { s with
        functional := true, init := false, histValid := false, counter := 0,
        fue := s.inp.fullUpdateEvery, psrBase := ⟨d0, d1⟩, psrTmp0 := d0,
        otpBank := if probe = s.cfg.otpSentinel then .bank0 else .bank1, otpSkip := 0, status := 0b0000#4,
        attached := .wr, trace := t.trace,
        inp := { s.inp with
          hostcmdValid := false, statuses := rest, readBytes := more, draws := t.inp.draws } }

/-! ### Orchestrator and history (44_orchestrator.md, 45_history.md) -/

/-- R203.  HwReset is eight micro-steps, low, high, low, high, a delay of T_RST after each; it leaves RST
high and INIT set.  That the state is left in the eighth of these steps is the model's choice (log entry
12). -/
def Obligations.HwResetSequence : Prop :=
  ∀ (s : State), s.st = .hwReset → s.sub = 0 → s.cfg.paramsOk = true → s.inp.hostcmdValid = false →
    s.inp.placed = none →
    runSteps 8 s = .next { s with
      st := .waitBusy1, sub := 0, rst := .high, init := true,
      trace := s.trace ++
        [.rstset .low, .delay s.cfg.tRst, .rstset .high, .delay s.cfg.tRst,
         .rstset .low, .delay s.cfg.tRst, .rstset .high, .delay s.cfg.tRst] }

/-- R215.  The completion step records PF in HF, counts the cycle modulo 2^32 and returns to Idle, without
an event, whatever STATUS holds. -/
def Obligations.CompletionRecordsAndCounts : Prop :=
  ∀ (s : State), s.st = .waitBusy5 → s.sub = 1 → s.cfg.paramsOk = true → s.inp.hostcmdValid = false →
    s.inp.placed = none →
    ∃ c : Word, c.toNat = (s.counter.toNat + 1) % 2 ^ 32 ∧
      step s = .next { s with
        st := .idle, sub := 0, hf := s.pf, histValid := true, counter := c }

/-- R200.  The states of a cycle follow one another in one fixed order, whatever the environment answers;
Idle is left only by an accepted SETUP, or by an accepted UPDATE: to HwReset with INIT 0, to WaitBusy1 with
INIT 1. -/
def Obligations.StatesFollowTheFixedOrder : Prop :=
  ∀ (s t : State), s.inp.placed = none → step s = .next t →
    (s.st.inCycle = true → t.st = s.st ∨ (s.st, t.st) ∈
      [(St.hwReset, St.waitBusy1), (.waitBusy1, .configuring), (.configuring, .transmittingFrame1),
       (.transmittingFrame1, .transmittingFrame2), (.transmittingFrame2, .waitBusy2),
       (.waitBusy2, .powerOn), (.powerOn, .waitBusy3), (.waitBusy3, .refresh), (.refresh, .waitBusy4),
       (.waitBusy4, .powerOff), (.powerOff, .waitBusy5), (.waitBusy5, .idle)]) ∧
    (s.st = .idle → t.st = .idle ∨ (t.st = .setupCheck ∧ Presented 0x01 s) ∨
      (t.st = .hwReset ∧ Presented 0x02 s ∧ s.functional = true ∧ s.init = false) ∨
      (t.st = .waitBusy1 ∧ Presented 0x02 s ∧ s.functional = true ∧ s.init = true)) ∧
    (s.st.inSetup = true → t.st.inSetup = true ∨ (s.st = .setupFin ∧ t.st = .idle))

/-- R215 to R218.  One whole cycle from an UPDATE presented to a functional block at rest, this spec's empty
hook given: under EVERY answer of the environment its trace, with the ERR events deleted and statuses and
outcomes erased, is R217's, and it ends at rest with the frame recorded and the cycle counted.  The cycle runs
on past the acceptance step because that step ends the presentation of UPDATE, which is the model's choice
(log entry 9), as is the number of steps (log entry 12). -/
def Obligations.CycleEmitsItsTrace : Prop :=
  ∀ (s : State) (mode : Mode) (tcode : Byte) (p : PanelSettings) (expected : List Event),
    Inv s → Presented 0x02 s → s.functional = true → s.cfg.preConfigHook = [] →
    mode = modeSel s.counter s.fue → tcode = tempCode s.cfg s.inp.temp mode →
    p = psrSel s.cfg s.psrBase mode →
    expected = cycleTrace s.cfg s.init mode tcode p.byte0 p.byte1
      (frameOf s.cfg.frameBytes (rot s.cfg s.inp.lf)) (frameOf s.cfg.frameBytes s.hf) →
    ∃ t evs, runSteps (expected.length + 2) s = .next t ∧
      t.trace = s.trace ++ evs ∧ erased evs = expected ∧
      t = { s with
        init := true, histValid := true, mode := mode, tcode := tcode, counter := s.counter + 1,
        pf := rot s.cfg s.inp.lf, hf := rot s.cfg s.inp.lf, status := t.status, trace := t.trace,
        inp := { s.inp with
          hostcmdValid := false, statuses := t.inp.statuses, waitOutcomes := t.inp.waitOutcomes,
          draws := t.inp.draws } } ∧
      (mode = .fast → s.init = true) ∧
      expected.length = (match mode, s.cfg.bvv with
        | .full, _ => if s.init then 22 else 30
        | .fast, .b => 30
        | .fast, _ => 26)

/-- R241.  `previous()` is HF byte for byte once a frame has been recorded, FRAME_BYTES zeros before. -/
def Obligations.PreviousIsTheLastRecordedFrame : Prop :=
  ∀ (s : State),
    (s.histValid = true → (previous s).length = s.cfg.frameBytes ∧
      ∀ a, a < s.cfg.frameBytes → (previous s)[a]? = some (readByte s.hf a)) ∧
    (s.histValid = false → previous s = List.replicate s.cfg.frameBytes 0x00)

/-! ### The whole machine -/

/-- R301.  What block reset leaves, whatever the contents `u` that the spec leaves unspecified: it emits no
event, the block is at rest, and UPDATE and FORCE_FULL have no effect.  State.reset is such a state. -/
def Obligations.BlockResetValues : Prop :=
  (∀ (u : Unspecified) (s : State), ∃ t, blockReset u s = t ∧
    t.st = .idle ∧ t.sub = 0 ∧ t.functional = false ∧ t.init = false ∧ t.histValid = false ∧
    t.mode = .full ∧ t.counter = 0 ∧ t.otpBank = .bank0 ∧ t.otpSkip = 0 ∧ t.status = 0 ∧
    t.dc = .data ∧ t.rst = .high ∧ t.attached = .none ∧ t.trace = s.trace ∧ t.cfg = s.cfg ∧
    t.inp = s.inp ∧ ready t = true ∧ exec .update t = .next t ∧ exec .forceFull t = .next t) ∧
  ∃ u, State.reset = blockReset u State.reset

/-- R38.  The invariant holds after block reset, whatever the unspecified contents, under every hook that
holds nothing but transactions and waits and with CAL_HZ < WR_HZ; State.reset is such a state, and its
parameters have the values R8 fixes. -/
def Obligations.BlockResetMeetsTheInvariant : Prop :=
  (∀ (u : Unspecified) (s : State), s.cfg.wf = true → s.inp.placed = none → Inv (blockReset u s)) ∧
  Inv State.reset ∧ State.reset.cfg.HasSpecConstants

/-- R38.  Every step keeps the invariant of the block.  In it SUB is 0 all through OtpSkip, which is the
model's choice (log entry 36). -/
def Obligations.StepKeepsTheInvariant : Prop :=
  ∀ (s t : State), Inv s → step s = .next t → Inv t

/-- R32, R33, R60.  Every step keeps the frame memories in their canonical form, with no byte beyond
FRAME_BYTES. -/
def Obligations.StepKeepsFramesCanonical : Prop :=
  ∀ (s t : State), FramesCanonical s → step s = .next t → FramesCanonical t

/-- R176.  Whether the block has a next step never depends on the environment: under the invariant, and
under the host's contract to present nothing while READY is 0, there always is one.  The spec gives Idle no
step while nothing is presented: that the model has one there, which changes nothing, is its choice (log entry
11). -/
def Obligations.QuietBlockIsNeverStuck : Prop :=
  ∀ (s : State), Inv s → Quiet s → ∃ t, step s = .next t

/-- R176, R185, R311, R325.  Every operation ends, under every answer of the environment, within a fixed
number of steps; how many steps a state takes is the model's (log entries 12 and 13). -/
def Obligations.EveryOperationEnds : Prop :=
  ∀ (s : State), Inv s → s.inp.hostcmdValid = false →
    ∃ n t, n ≤ 65600 + s.cfg.preConfigHook.length ∧ runSteps n s = .next t ∧ t.st = .idle

/-- R26.  No value of STATUS changes any transition of the block. -/
def Obligations.StatusIsObservationOnly : Prop :=
  ∀ (s : State) (v : BitVec 4),
    mapNext (fun t => { t with status := 0 }) (step { s with status := v }) =
      mapNext (fun t => { t with status := 0 }) (step s)

/-- R31, R74, R219.  While an operation is in flight the block does not read LF, TEMP or
FULL_UPDATE_EVERY: a step from a state with other values there is the same step. -/
def Obligations.InputsAreSampledAtAcceptanceOnly : Prop :=
  ∀ (s : State) (temp : Half) (f : Word) (lf : Memory), s.st ≠ .idle →
    step { s with inp := { s.inp with temp := temp, fullUpdateEvery := f, lf := lf } } =
      mapNext (fun t => { t with inp := { t.inp with temp := temp, fullUpdateEvery := f, lf := lf } })
        (step s)

/-- R21, the writer column, R22, R25, R219.  A register that a step changes is changed by one of the rules
named as its writers. -/
def Obligations.RegistersHaveOnlyTheirWriters : Prop :=
  ∀ (s t : State), s.cfg.hookWf = true → s.inp.placed = none → step s = .next t →
    (t.functional ≠ s.functional → Presented 0x01 s ∨ s.st = .setupFin) ∧
    (t.init ≠ s.init → Presented 0x01 s ∨ s.st = .hwReset) ∧
    (t.histValid ≠ s.histValid → Presented 0x01 s ∨ s.st = .waitBusy5) ∧
    (t.mode ≠ s.mode ∨ t.tcode ≠ s.tcode ∨ t.pf ≠ s.pf → Presented 0x02 s ∧ s.functional = true) ∧
    (t.psrBase ≠ s.psrBase → s.st.inSetup = true) ∧
    (t.psrTmp0 ≠ s.psrTmp0 → s.st = .otpData0) ∧
    (t.counter ≠ s.counter → Presented 0x01 s ∨ Presented 0x03 s ∨ s.st = .waitBusy5) ∧
    (t.fue ≠ s.fue → Presented 0x01 s) ∧
    (t.otpBank ≠ s.otpBank → s.st = .otpProbe) ∧
    (t.otpSkip ≠ s.otpSkip → s.st = .otpProbe ∨ s.st = .otpSkip) ∧
    (t.rst ≠ s.rst → s.st = .setupCheck ∨ s.st = .hwReset) ∧
    (t.attached ≠ s.attached → s.st = .setupCheck ∨ s.st = .setupFin) ∧
    (t.hf ≠ s.hf → s.st = .waitBusy5)

/-- R25, R202, R315.  INIT is cleared only by an accepted SETUP, and HwReset is entered only from Idle by an
UPDATE with INIT 0, so it runs at most once in a setup lifetime. -/
def Obligations.HardwareResetRunsOncePerLifetime : Prop :=
  ∀ (s t : State), s.inp.placed = none → step s = .next t →
    (s.init = true → t.init = false → Presented 0x01 s ∧ t.st = .setupCheck) ∧
    (t.st = .hwReset → s.st ≠ .hwReset → Presented 0x02 s ∧ s.init = false) ∧
    (s.st = .hwReset → t.st ≠ .hwReset → t.st = .waitBusy1 ∧ t.init = true)

/-- R6, R29, R61, R71, R175.  No step changes a parameter or one of the inputs LF, TEMP, FULL_UPDATE_EVERY and
BUSY, and the trace only grows.  (HOSTCMD_VALID is the input that a step in Idle does change: log entry 9.) -/
def Obligations.StepKeepsParametersAndSampledInputs : Prop :=
  ∀ (s t : State), step s = .next t →
    t.cfg = s.cfg ∧ s.trace <+: t.trace ∧
    t.inp.lf = s.inp.lf ∧ t.inp.temp = s.inp.temp ∧
    t.inp.fullUpdateEvery = s.inp.fullUpdateEvery ∧ t.inp.busy = s.inp.busy

/-- R26, R283.  A STATUS flag stays set until SETUP is accepted, or UPDATE for BUS_ERR and BUSY_TO. -/
def Obligations.StatusFlagsAreSticky : Prop :=
  ∀ (s t : State) (k : ErrKind), s.inp.placed = none → step s = .next t → statusFlag s.status k = true →
    statusFlag t.status k = true ∨ Presented 0x01 s ∨
      (Presented 0x02 s ∧ (k = .bus ∨ k = .busyTimeout))

/-- R24, R250.  A step runs the instruction the state fetches, and around it does only what follows that
instruction: `sequence`, which for a host operation ends its presentation and nothing else (log entry
9).  A word of the opcode table that withFetchWord places is the instruction the next step runs (log entry
18). -/
def Obligations.StepRunsTheFetchedInstruction : Prop :=
  ∀ (s : State) (i : Instr),
    (s.inp.placed = none → fetch s = some i → s.st = .idle ∨ (s.inp.hostcmdValid = false ∧ s.cfg.paramsOk = true) →
      step s = mapNext (sequence s) (exec i s)) ∧
    (s.st = .idle → s.inp.hostcmdValid = true → decodeHost s.inp.hostcmd = .ok i →
      fetch s = some i ∧ ∀ t, sequence s t = { t with inp := { t.inp with hostcmdValid := false } }) ∧
    (∀ nbits w u, decodeTableWord nbits w = some i → u = s.withFetchWord nbits w →
      (i.isHostOp = true → u.inp.placed = none ∧ u.st = .idle ∧ fetch u = some i) ∧
      (i.isHostOp = false →
        step u = exec i { u with inp := { u.inp with placed := none } }))

/-! ### Encodings (30_encoding.md) -/

/-- R90, R94, R100.  Decoding an encoded well-formed instruction gives it back, for every operand value. -/
def Obligations.DecodeOfEncode : Prop :=
  ∀ (ad : CmdAddrs) (i : Instr), i.wf ad = true → decode ad (encode ad i) = .ok i

/-- R90, R92, R94, R100.  Each word of the three formats has one meaning: what decodes is the encoder's
word. -/
def Obligations.EncodeOfDecode : Prop :=
  ∀ (ad : CmdAddrs) (w : Encoded) (i : Instr), decode ad w = .ok i → encode ad i = w

/-- R90, R94.  Words written out from the spec's encoding, bit by bit, decode to their instructions. -/
def Obligations.WordsDecodeAsTheSpecWritesThem : Prop :=
  decode defaultAddrs (.host 0b00000001) = .ok .setup ∧
  decode defaultAddrs (.host 0b00000011) = .ok .forceFull ∧
  decode defaultAddrs (.record 0b00000000000000000100) = .ok (.cmd 0x04) ∧
  decode defaultAddrs (.record 0b00010000000000100111) = .ok (.dat 0x27) ∧
  decode defaultAddrs (.record 0b00100000000000000001) = .ok (.bulk .hf) ∧
  decode defaultAddrs (.record 0b01010000000000110010) = .ok (.delay 50) ∧
  decode defaultAddrs (.record 0b10000000000000000000) = .ok (.detach .cal) ∧
  decode defaultAddrs (.record 0b10010000000000000011) = .ok (.err .configuration) ∧
  decode defaultAddrs (.panel 0b11100101) = .ok .tset ∧
  decode defaultAddrs (.record 0b00100000000000000011) = .error .reservedFrameSource

/-- R96, R112.  On the bus a panel command and its payload decode to that command, also where two commands
share an address byte: under the default address bytes (log entry 3) the payload tells BORDER from VCOM. -/
def Obligations.BusUnitsDecodeToTheirCommand : Prop :=
  ∀ (c : Config) (n : Nat) (i : Instr) (a : Byte) (payload : List Byte),
    c.addrs = defaultAddrs → c.borderValue ≠ c.vcomValue →
    defaultAddrs.addressOf i = some a → payloadFits c n payload i = true →
    decodeUnit c n a payload = .ok i
end

