-- ==== Sys2Proof/Laws/Encoding.lean ====
section
/-! SUPPORT. The record format of `30_encoding.md` R94: what the two fields of a record read as, once. -/

namespace Sys2Proof

/-- The number a record of kind `k` and argument `a` stands for. -/
theorem toNat_record (k : BitVec 4) (a : Half) :
    BitVec.toNat (w := 4 + 16) (k ++ a) = k.toNat * 65536 + a.toNat := by
  rw [BitVec.toNat_append, ← Nat.shiftLeft_add_eq_or_of_lt a.isLt, Nat.shiftLeft_eq]

/-- The argument of a record built from a kind and an argument is that argument. -/
theorem recordArg_append (k : BitVec 4) (a : Half) : recordArg (k ++ a) = a := by
  have h := toNat_record k a
  have := a.isLt
  apply BitVec.eq_of_toNat_eq
  unfold recordArg
  rw [BitVec.extractLsb'_toNat]
  show BitVec.toNat (w := 4 + 16) (k ++ a) >>> 0 % 2 ^ 16 = _
  rw [h, Nat.shiftRight_zero]
  omega

/-- The kind of a record built from a kind and an argument is that kind. -/
theorem recordKind_append (k : BitVec 4) (a : Half) : recordKind (k ++ a) = k := by
  have h := toNat_record k a
  have := a.isLt
  have := k.isLt
  apply BitVec.eq_of_toNat_eq
  unfold recordKind
  rw [BitVec.extractLsb'_toNat]
  show BitVec.toNat (w := 4 + 16) (k ++ a) >>> 16 % 2 ^ 4 = _
  rw [h, Nat.shiftRight_eq_div_pow]
  omega

/-- A record is its kind and its argument. -/
theorem recordKind_append_recordArg (r : BitVec 20) : recordKind r ++ recordArg r = r := by
  apply BitVec.eq_of_toNat_eq
  refine (toNat_record (recordKind r) (recordArg r)).trans ?_
  unfold recordKind recordArg
  rw [BitVec.extractLsb'_toNat, BitVec.extractLsb'_toNat, Nat.shiftRight_eq_div_pow,
    Nat.shiftRight_eq_div_pow]
  have := r.isLt
  omega

/-- An argument below 256 is its low byte. -/
theorem setWidth_setWidth_of_lt {a : Half} (h : a.toNat < 256) : (a.setWidth 8).setWidth 16 = a := by
  apply BitVec.eq_of_toNat_eq
  simp only [BitVec.toNat_setWidth]
  omega

end Sys2Proof
end

