-- ==== Sys2Proof/Laws/Memory.lean ====
section
/-! SUPPORT. The laws of a frame memory: reading after writing, and that every memory operation keeps the
canonical form. -/

namespace Sys2Proof.Machine

@[simp] theorem readByte_nil (a : Nat) : readByte [] a = unlistedByte := rfl

theorem allAbove_iff {lo : Nat} {m : Memory} : allAbove lo m = true ↔ ∀ c ∈ m, lo < c.1 := by
  simp [allAbove]

theorem allAbove_cons {lo k : Nat} {w : Byte} {m : Memory} :
    allAbove lo ((k, w) :: m) = true ↔ lo < k ∧ allAbove lo m = true := by
  simp [allAbove]

theorem allAbove_mono {lo lo' : Nat} {m : Memory} (h : allAbove lo m = true) (hl : lo' ≤ lo) :
    allAbove lo' m = true :=
  allAbove_iff.2 fun c hc => lt_of_le_of_lt hl (allAbove_iff.1 h c hc)

theorem memoryWf_cons {k : Nat} {v : Byte} {m : Memory} :
    memoryWf ((k, v) :: m) = true ↔ v ≠ unlistedByte ∧ allAbove k m = true ∧ memoryWf m = true := by
  simp [memoryWf, and_assoc]

/-- An address below every listed one reads as unlisted. -/
theorem readByte_of_allAbove {lo a : Nat} {m : Memory} (h : allAbove lo m = true) (ha : a ≤ lo) :
    readByte m a = unlistedByte := by
  induction m with
  | nil => rfl
  | cons c m ih =>
    obtain ⟨k, v⟩ := c
    have hk : lo < k := allAbove_iff.1 h (k, v) (by simp)
    have hm : allAbove lo m = true := allAbove_iff.2 fun c hc => allAbove_iff.1 h c (by simp [hc])
    have hne : k ≠ a := by omega
    simp [readByte, hne, ih hm]

/-- Reading after a write: the written address gives the value, every other address what it gave. -/
theorem readByte_writeByte {m : Memory} (h : memoryWf m = true) (a b : Nat) (v : Byte) :
    readByte (writeByte m a v) b = if b = a then v else readByte m b := by
  induction m with
  | nil =>
    by_cases hv : v = unlistedByte <;> by_cases hb : b = a
    · simp [writeByte, hv, hb]
    · simp [writeByte, hv, hb]
    · simp [writeByte, hv, hb, readByte]
    · simp [writeByte, hv, hb, readByte, Ne.symm hb]
  | cons c m ih =>
    obtain ⟨k, w⟩ := c
    obtain ⟨-, hall, hwf⟩ := memoryWf_cons.1 h
    have ih := ih hwf
    by_cases hlt : a < k
    · have hun : readByte ((k, w) :: m) a = unlistedByte := by
        have : k ≠ a := by omega
        simp [readByte, this, readByte_of_allAbove hall (le_of_lt hlt)]
      by_cases hv : v = unlistedByte <;> by_cases hb : b = a
      · subst hb; simp [writeByte, hlt, hv, hun]
      · simp [writeByte, hlt, hv, hb]
      · subst hb; simp [writeByte, hlt, hv, readByte]
      · simp [writeByte, hlt, hv, hb, readByte, Ne.symm hb]
    · by_cases hak : a = k
      · subst hak
        by_cases hv : v = unlistedByte <;> by_cases hb : b = a
        · subst hb; simp [writeByte, hv, readByte_of_allAbove hall (le_refl b)]
        · simp [writeByte, hv, hb, readByte, Ne.symm hb]
        · simp [writeByte, hv, hb, readByte]
        · simp [writeByte, hv, hb, readByte, Ne.symm hb]
      · by_cases hkb : k = b
        · subst hkb
          simp [writeByte, hlt, hak, readByte, Ne.symm hak]
        · simp [writeByte, hlt, hak, readByte, hkb, ih]

theorem allAbove_writeByte {m : Memory} {lo a : Nat} {v : Byte} (h : allAbove lo m = true) (ha : lo < a) :
    allAbove lo (writeByte m a v) = true := by
  induction m with
  | nil => by_cases hv : v = unlistedByte <;> simp [writeByte, hv, allAbove, ha]
  | cons c m ih =>
    obtain ⟨k, w⟩ := c
    obtain ⟨hk, hm⟩ := allAbove_cons.1 h
    unfold writeByte
    split_ifs
    · exact h
    · exact allAbove_cons.2 ⟨ha, h⟩
    · exact hm
    · exact allAbove_cons.2 ⟨ha, hm⟩
    · exact allAbove_cons.2 ⟨hk, ih hm⟩

/-- A write keeps the canonical form. -/
theorem memoryWf_writeByte {m : Memory} (h : memoryWf m = true) (a : Nat) (v : Byte) :
    memoryWf (writeByte m a v) = true := by
  induction m with
  | nil => by_cases hv : v = unlistedByte <;> simp [writeByte, hv, memoryWf, allAbove]
  | cons c m ih =>
    obtain ⟨k, w⟩ := c
    obtain ⟨hw, hall, hwf⟩ := memoryWf_cons.1 h
    unfold writeByte
    split_ifs with h1 h2 h3 h4
    · exact h
    · refine memoryWf_cons.2 ⟨h2, ?_, h⟩
      refine allAbove_iff.2 ?_
      intro c hc
      rcases List.mem_cons.1 hc with rfl | hc
      · exact h1
      · exact lt_trans h1 (allAbove_iff.1 hall c hc)
    · exact hwf
    · exact memoryWf_cons.2 ⟨h4, h3 ▸ hall, hwf⟩
    · exact memoryWf_cons.2 ⟨hw, allAbove_writeByte hall (by omega), ih hwf⟩

theorem allAbove_memoryFrom (f : Nat → Byte) {lo : Nat} (a n : Nat) (h : lo < a) :
    allAbove lo (memoryFrom f a n) = true := by
  induction n generalizing a with
  | zero => rfl
  | succ n ih =>
    unfold memoryFrom
    split_ifs
    · exact ih (a + 1) (by omega)
    · exact allAbove_iff.2 fun c hc => by
        rcases List.mem_cons.1 hc with rfl | hc
        · exact h
        · exact allAbove_iff.1 (ih (a + 1) (by omega)) c hc

/-- A frame written whole is in the canonical form. -/
theorem memoryWf_memoryFrom (f : Nat → Byte) (a n : Nat) : memoryWf (memoryFrom f a n) = true := by
  induction n generalizing a with
  | zero => rfl
  | succ n ih =>
    unfold memoryFrom
    split_ifs with h
    · exact ih (a + 1)
    · exact memoryWf_cons.2 ⟨h, allAbove_memoryFrom f (a + 1) n (by omega), ih (a + 1)⟩

theorem memoryWf_memoryOf (n : Nat) (f : Nat → Byte) : memoryWf (memoryOf n f) = true :=
  memoryWf_memoryFrom f 0 n

theorem readByte_memoryFrom (f : Nat → Byte) (a n b : Nat) :
    readByte (memoryFrom f a n) b = if a ≤ b ∧ b < a + n then f b else unlistedByte := by
  induction n generalizing a with
  | zero =>
    have : ¬(a ≤ b ∧ b < a + 0) := by omega
    simp [memoryFrom]
  | succ n ih =>
    unfold memoryFrom
    by_cases hb : b = a
    · subst hb
      split_ifs with h1 h2 h2
      · rw [ih]; simp [h1]
      · omega
      · simp [readByte]
      · omega
    · have hne : a ≠ b := fun h => hb h.symm
      have hiff : (a + 1 ≤ b ∧ b < a + 1 + n) ↔ (a ≤ b ∧ b < a + (n + 1)) := by omega
      split_ifs with h1 h2 h2 <;> simp_all [readByte]

/-- Reading a frame written whole. -/
theorem readByte_memoryOf (n : Nat) (f : Nat → Byte) (b : Nat) :
    readByte (memoryOf n f) b = if b < n then f b else unlistedByte := by
  simp [memoryOf, readByte_memoryFrom]

theorem memoryWithin_iff {n : Nat} {m : Memory} : memoryWithin n m = true ↔ ∀ c ∈ m, c.1 < n := by
  simp [memoryWithin]

theorem memoryWithin_memoryFrom (f : Nat → Byte) (a n k : Nat) (h : a + n ≤ k) :
    memoryWithin k (memoryFrom f a n) = true := by
  induction n generalizing a with
  | zero => rfl
  | succ n ih =>
    unfold memoryFrom
    split_ifs
    · exact ih (a + 1) (by omega)
    · refine memoryWithin_iff.2 fun c hc => ?_
      rcases List.mem_cons.1 hc with rfl | hc
      · show a < k
        omega
      · exact memoryWithin_iff.1 (ih (a + 1) (by omega)) c hc

/-- A frame written whole lists the frame's addresses only. -/
theorem memoryWithin_memoryOf (n : Nat) (f : Nat → Byte) : memoryWithin n (memoryOf n f) = true :=
  memoryWithin_memoryFrom f 0 n n (by omega)

/-- A frame read whole has the frame's length. -/
@[simp] theorem frameOf_length (n : Nat) (m : Memory) : (frameOf n m).length = n := by simp [frameOf]

/-- The zero frame reads as zeros. -/
theorem frameOf_nil (n : Nat) : frameOf n [] = List.replicate n unlistedByte := by
  induction n with
  | zero => rfl
  | succ n ih => simpa [frameOf, List.range_succ, List.replicate_succ'] using ih

end Sys2Proof.Machine
end

