-- ==== Sys2Proof/Laws/State.lean ====
section
/-! SUPPORT. One lemma per field per state update: what each update of Machine/Ops.lean leaves in each
field of State, so that no proof unfolds a record update. -/

namespace Sys2Proof.Machine

/-! ### emit -/

@[simp] theorem emit_cfg (e : Event) (s : State) : (emit e s).cfg = s.cfg := rfl
@[simp] theorem emit_st (e : Event) (s : State) : (emit e s).st = s.st := rfl
@[simp] theorem emit_sub (e : Event) (s : State) : (emit e s).sub = s.sub := rfl
@[simp] theorem emit_functional (e : Event) (s : State) : (emit e s).functional = s.functional := rfl
@[simp] theorem emit_init (e : Event) (s : State) : (emit e s).init = s.init := rfl
@[simp] theorem emit_histValid (e : Event) (s : State) : (emit e s).histValid = s.histValid := rfl
@[simp] theorem emit_mode (e : Event) (s : State) : (emit e s).mode = s.mode := rfl
@[simp] theorem emit_tcode (e : Event) (s : State) : (emit e s).tcode = s.tcode := rfl
@[simp] theorem emit_psrBase (e : Event) (s : State) : (emit e s).psrBase = s.psrBase := rfl
@[simp] theorem emit_psrTmp0 (e : Event) (s : State) : (emit e s).psrTmp0 = s.psrTmp0 := rfl
@[simp] theorem emit_counter (e : Event) (s : State) : (emit e s).counter = s.counter := rfl
@[simp] theorem emit_fue (e : Event) (s : State) : (emit e s).fue = s.fue := rfl
@[simp] theorem emit_otpBank (e : Event) (s : State) : (emit e s).otpBank = s.otpBank := rfl
@[simp] theorem emit_otpSkip (e : Event) (s : State) : (emit e s).otpSkip = s.otpSkip := rfl
@[simp] theorem emit_status (e : Event) (s : State) : (emit e s).status = s.status := rfl
@[simp] theorem emit_dc (e : Event) (s : State) : (emit e s).dc = s.dc := rfl
@[simp] theorem emit_rst (e : Event) (s : State) : (emit e s).rst = s.rst := rfl
@[simp] theorem emit_attached (e : Event) (s : State) : (emit e s).attached = s.attached := rfl
@[simp] theorem emit_pf (e : Event) (s : State) : (emit e s).pf = s.pf := rfl
@[simp] theorem emit_hf (e : Event) (s : State) : (emit e s).hf = s.hf := rfl
@[simp] theorem emit_inp (e : Event) (s : State) : (emit e s).inp = s.inp := rfl
@[simp] theorem emit_trace (e : Event) (s : State) : (emit e s).trace = s.trace ++ [e] := rfl

/-! ### goto -/

@[simp] theorem goto_cfg (q : St) (s : State) : (goto q s).cfg = s.cfg := rfl
@[simp] theorem goto_st (q : St) (s : State) : (goto q s).st = q := rfl
@[simp] theorem goto_sub (q : St) (s : State) : (goto q s).sub = 0 := rfl
@[simp] theorem goto_functional (q : St) (s : State) : (goto q s).functional = s.functional := rfl
@[simp] theorem goto_init (q : St) (s : State) : (goto q s).init = s.init := rfl
@[simp] theorem goto_histValid (q : St) (s : State) : (goto q s).histValid = s.histValid := rfl
@[simp] theorem goto_mode (q : St) (s : State) : (goto q s).mode = s.mode := rfl
@[simp] theorem goto_tcode (q : St) (s : State) : (goto q s).tcode = s.tcode := rfl
@[simp] theorem goto_psrBase (q : St) (s : State) : (goto q s).psrBase = s.psrBase := rfl
@[simp] theorem goto_psrTmp0 (q : St) (s : State) : (goto q s).psrTmp0 = s.psrTmp0 := rfl
@[simp] theorem goto_counter (q : St) (s : State) : (goto q s).counter = s.counter := rfl
@[simp] theorem goto_fue (q : St) (s : State) : (goto q s).fue = s.fue := rfl
@[simp] theorem goto_otpBank (q : St) (s : State) : (goto q s).otpBank = s.otpBank := rfl
@[simp] theorem goto_otpSkip (q : St) (s : State) : (goto q s).otpSkip = s.otpSkip := rfl
@[simp] theorem goto_status (q : St) (s : State) : (goto q s).status = s.status := rfl
@[simp] theorem goto_dc (q : St) (s : State) : (goto q s).dc = s.dc := rfl
@[simp] theorem goto_rst (q : St) (s : State) : (goto q s).rst = s.rst := rfl
@[simp] theorem goto_attached (q : St) (s : State) : (goto q s).attached = s.attached := rfl
@[simp] theorem goto_pf (q : St) (s : State) : (goto q s).pf = s.pf := rfl
@[simp] theorem goto_hf (q : St) (s : State) : (goto q s).hf = s.hf := rfl
@[simp] theorem goto_inp (q : St) (s : State) : (goto q s).inp = s.inp := rfl
@[simp] theorem goto_trace (q : St) (s : State) : (goto q s).trace = s.trace := rfl

/-! ### nextSub -/

@[simp] theorem nextSub_cfg (s : State) : (nextSub s).cfg = s.cfg := rfl
@[simp] theorem nextSub_st (s : State) : (nextSub s).st = s.st := rfl
@[simp] theorem nextSub_sub (s : State) : (nextSub s).sub = s.sub + 1 := rfl
@[simp] theorem nextSub_functional (s : State) : (nextSub s).functional = s.functional := rfl
@[simp] theorem nextSub_init (s : State) : (nextSub s).init = s.init := rfl
@[simp] theorem nextSub_histValid (s : State) : (nextSub s).histValid = s.histValid := rfl
@[simp] theorem nextSub_mode (s : State) : (nextSub s).mode = s.mode := rfl
@[simp] theorem nextSub_tcode (s : State) : (nextSub s).tcode = s.tcode := rfl
@[simp] theorem nextSub_psrBase (s : State) : (nextSub s).psrBase = s.psrBase := rfl
@[simp] theorem nextSub_psrTmp0 (s : State) : (nextSub s).psrTmp0 = s.psrTmp0 := rfl
@[simp] theorem nextSub_counter (s : State) : (nextSub s).counter = s.counter := rfl
@[simp] theorem nextSub_fue (s : State) : (nextSub s).fue = s.fue := rfl
@[simp] theorem nextSub_otpBank (s : State) : (nextSub s).otpBank = s.otpBank := rfl
@[simp] theorem nextSub_otpSkip (s : State) : (nextSub s).otpSkip = s.otpSkip := rfl
@[simp] theorem nextSub_status (s : State) : (nextSub s).status = s.status := rfl
@[simp] theorem nextSub_dc (s : State) : (nextSub s).dc = s.dc := rfl
@[simp] theorem nextSub_rst (s : State) : (nextSub s).rst = s.rst := rfl
@[simp] theorem nextSub_attached (s : State) : (nextSub s).attached = s.attached := rfl
@[simp] theorem nextSub_pf (s : State) : (nextSub s).pf = s.pf := rfl
@[simp] theorem nextSub_hf (s : State) : (nextSub s).hf = s.hf := rfl
@[simp] theorem nextSub_inp (s : State) : (nextSub s).inp = s.inp := rfl
@[simp] theorem nextSub_trace (s : State) : (nextSub s).trace = s.trace := rfl

/-! ### raise -/

@[simp] theorem raise_cfg (k : ErrKind) (s : State) : (raise k s).cfg = s.cfg := rfl
@[simp] theorem raise_st (k : ErrKind) (s : State) : (raise k s).st = s.st := rfl
@[simp] theorem raise_sub (k : ErrKind) (s : State) : (raise k s).sub = s.sub := rfl
@[simp] theorem raise_functional (k : ErrKind) (s : State) : (raise k s).functional = s.functional := rfl
@[simp] theorem raise_init (k : ErrKind) (s : State) : (raise k s).init = s.init := rfl
@[simp] theorem raise_histValid (k : ErrKind) (s : State) : (raise k s).histValid = s.histValid := rfl
@[simp] theorem raise_mode (k : ErrKind) (s : State) : (raise k s).mode = s.mode := rfl
@[simp] theorem raise_tcode (k : ErrKind) (s : State) : (raise k s).tcode = s.tcode := rfl
@[simp] theorem raise_psrBase (k : ErrKind) (s : State) : (raise k s).psrBase = s.psrBase := rfl
@[simp] theorem raise_psrTmp0 (k : ErrKind) (s : State) : (raise k s).psrTmp0 = s.psrTmp0 := rfl
@[simp] theorem raise_counter (k : ErrKind) (s : State) : (raise k s).counter = s.counter := rfl
@[simp] theorem raise_fue (k : ErrKind) (s : State) : (raise k s).fue = s.fue := rfl
@[simp] theorem raise_otpBank (k : ErrKind) (s : State) : (raise k s).otpBank = s.otpBank := rfl
@[simp] theorem raise_otpSkip (k : ErrKind) (s : State) : (raise k s).otpSkip = s.otpSkip := rfl
@[simp] theorem raise_status (k : ErrKind) (s : State) : (raise k s).status = setStatus s.status k := rfl
@[simp] theorem raise_dc (k : ErrKind) (s : State) : (raise k s).dc = s.dc := rfl
@[simp] theorem raise_rst (k : ErrKind) (s : State) : (raise k s).rst = s.rst := rfl
@[simp] theorem raise_attached (k : ErrKind) (s : State) : (raise k s).attached = s.attached := rfl
@[simp] theorem raise_pf (k : ErrKind) (s : State) : (raise k s).pf = s.pf := rfl
@[simp] theorem raise_hf (k : ErrKind) (s : State) : (raise k s).hf = s.hf := rfl
@[simp] theorem raise_inp (k : ErrKind) (s : State) : (raise k s).inp = s.inp := rfl
@[simp] theorem raise_trace (k : ErrKind) (s : State) : (raise k s).trace = s.trace ++ [.err k] := rfl

/-! ### takeStatus -/

@[simp] theorem takeStatus_cfg (s : State) : (takeStatus s).cfg = s.cfg := rfl
@[simp] theorem takeStatus_st (s : State) : (takeStatus s).st = s.st := rfl
@[simp] theorem takeStatus_sub (s : State) : (takeStatus s).sub = s.sub := rfl
@[simp] theorem takeStatus_functional (s : State) : (takeStatus s).functional = s.functional := rfl
@[simp] theorem takeStatus_init (s : State) : (takeStatus s).init = s.init := rfl
@[simp] theorem takeStatus_histValid (s : State) : (takeStatus s).histValid = s.histValid := rfl
@[simp] theorem takeStatus_mode (s : State) : (takeStatus s).mode = s.mode := rfl
@[simp] theorem takeStatus_tcode (s : State) : (takeStatus s).tcode = s.tcode := rfl
@[simp] theorem takeStatus_psrBase (s : State) : (takeStatus s).psrBase = s.psrBase := rfl
@[simp] theorem takeStatus_psrTmp0 (s : State) : (takeStatus s).psrTmp0 = s.psrTmp0 := rfl
@[simp] theorem takeStatus_counter (s : State) : (takeStatus s).counter = s.counter := rfl
@[simp] theorem takeStatus_fue (s : State) : (takeStatus s).fue = s.fue := rfl
@[simp] theorem takeStatus_otpBank (s : State) : (takeStatus s).otpBank = s.otpBank := rfl
@[simp] theorem takeStatus_otpSkip (s : State) : (takeStatus s).otpSkip = s.otpSkip := rfl
@[simp] theorem takeStatus_status (s : State) : (takeStatus s).status = s.status := rfl
@[simp] theorem takeStatus_dc (s : State) : (takeStatus s).dc = s.dc := rfl
@[simp] theorem takeStatus_rst (s : State) : (takeStatus s).rst = s.rst := rfl
@[simp] theorem takeStatus_attached (s : State) : (takeStatus s).attached = s.attached := rfl
@[simp] theorem takeStatus_pf (s : State) : (takeStatus s).pf = s.pf := rfl
@[simp] theorem takeStatus_hf (s : State) : (takeStatus s).hf = s.hf := rfl
@[simp] theorem takeStatus_inp (s : State) :
    (takeStatus s).inp = { s.inp with statuses := s.inp.statuses.tail, draws := s.inp.draws + 1 } := rfl
@[simp] theorem takeStatus_trace (s : State) : (takeStatus s).trace = s.trace := rfl

/-! ### takeStatusAndByte -/

@[simp] theorem takeStatusAndByte_cfg (s : State) : (takeStatusAndByte s).cfg = s.cfg := rfl
@[simp] theorem takeStatusAndByte_st (s : State) : (takeStatusAndByte s).st = s.st := rfl
@[simp] theorem takeStatusAndByte_sub (s : State) : (takeStatusAndByte s).sub = s.sub := rfl
@[simp] theorem takeStatusAndByte_functional (s : State) : (takeStatusAndByte s).functional = s.functional := rfl
@[simp] theorem takeStatusAndByte_init (s : State) : (takeStatusAndByte s).init = s.init := rfl
@[simp] theorem takeStatusAndByte_histValid (s : State) : (takeStatusAndByte s).histValid = s.histValid := rfl
@[simp] theorem takeStatusAndByte_mode (s : State) : (takeStatusAndByte s).mode = s.mode := rfl
@[simp] theorem takeStatusAndByte_tcode (s : State) : (takeStatusAndByte s).tcode = s.tcode := rfl
@[simp] theorem takeStatusAndByte_psrBase (s : State) : (takeStatusAndByte s).psrBase = s.psrBase := rfl
@[simp] theorem takeStatusAndByte_psrTmp0 (s : State) : (takeStatusAndByte s).psrTmp0 = s.psrTmp0 := rfl
@[simp] theorem takeStatusAndByte_counter (s : State) : (takeStatusAndByte s).counter = s.counter := rfl
@[simp] theorem takeStatusAndByte_fue (s : State) : (takeStatusAndByte s).fue = s.fue := rfl
@[simp] theorem takeStatusAndByte_otpBank (s : State) : (takeStatusAndByte s).otpBank = s.otpBank := rfl
@[simp] theorem takeStatusAndByte_otpSkip (s : State) : (takeStatusAndByte s).otpSkip = s.otpSkip := rfl
@[simp] theorem takeStatusAndByte_status (s : State) : (takeStatusAndByte s).status = s.status := rfl
@[simp] theorem takeStatusAndByte_dc (s : State) : (takeStatusAndByte s).dc = s.dc := rfl
@[simp] theorem takeStatusAndByte_rst (s : State) : (takeStatusAndByte s).rst = s.rst := rfl
@[simp] theorem takeStatusAndByte_attached (s : State) : (takeStatusAndByte s).attached = s.attached := rfl
@[simp] theorem takeStatusAndByte_pf (s : State) : (takeStatusAndByte s).pf = s.pf := rfl
@[simp] theorem takeStatusAndByte_hf (s : State) : (takeStatusAndByte s).hf = s.hf := rfl
@[simp] theorem takeStatusAndByte_inp (s : State) :
    (takeStatusAndByte s).inp = { s.inp with statuses := s.inp.statuses.tail, readBytes := s.inp.readBytes.tail, draws := s.inp.draws + 1 } := rfl
@[simp] theorem takeStatusAndByte_trace (s : State) : (takeStatusAndByte s).trace = s.trace := rfl

/-! ### withdrawHostcmd -/

@[simp] theorem withdrawHostcmd_cfg (s : State) : (withdrawHostcmd s).cfg = s.cfg := rfl
@[simp] theorem withdrawHostcmd_st (s : State) : (withdrawHostcmd s).st = s.st := rfl
@[simp] theorem withdrawHostcmd_sub (s : State) : (withdrawHostcmd s).sub = s.sub := rfl
@[simp] theorem withdrawHostcmd_functional (s : State) : (withdrawHostcmd s).functional = s.functional := rfl
@[simp] theorem withdrawHostcmd_init (s : State) : (withdrawHostcmd s).init = s.init := rfl
@[simp] theorem withdrawHostcmd_histValid (s : State) : (withdrawHostcmd s).histValid = s.histValid := rfl
@[simp] theorem withdrawHostcmd_mode (s : State) : (withdrawHostcmd s).mode = s.mode := rfl
@[simp] theorem withdrawHostcmd_tcode (s : State) : (withdrawHostcmd s).tcode = s.tcode := rfl
@[simp] theorem withdrawHostcmd_psrBase (s : State) : (withdrawHostcmd s).psrBase = s.psrBase := rfl
@[simp] theorem withdrawHostcmd_psrTmp0 (s : State) : (withdrawHostcmd s).psrTmp0 = s.psrTmp0 := rfl
@[simp] theorem withdrawHostcmd_counter (s : State) : (withdrawHostcmd s).counter = s.counter := rfl
@[simp] theorem withdrawHostcmd_fue (s : State) : (withdrawHostcmd s).fue = s.fue := rfl
@[simp] theorem withdrawHostcmd_otpBank (s : State) : (withdrawHostcmd s).otpBank = s.otpBank := rfl
@[simp] theorem withdrawHostcmd_otpSkip (s : State) : (withdrawHostcmd s).otpSkip = s.otpSkip := rfl
@[simp] theorem withdrawHostcmd_status (s : State) : (withdrawHostcmd s).status = s.status := rfl
@[simp] theorem withdrawHostcmd_dc (s : State) : (withdrawHostcmd s).dc = s.dc := rfl
@[simp] theorem withdrawHostcmd_rst (s : State) : (withdrawHostcmd s).rst = s.rst := rfl
@[simp] theorem withdrawHostcmd_attached (s : State) : (withdrawHostcmd s).attached = s.attached := rfl
@[simp] theorem withdrawHostcmd_pf (s : State) : (withdrawHostcmd s).pf = s.pf := rfl
@[simp] theorem withdrawHostcmd_hf (s : State) : (withdrawHostcmd s).hf = s.hf := rfl
@[simp] theorem withdrawHostcmd_inp (s : State) :
    (withdrawHostcmd s).inp = { s.inp with hostcmdValid := false } := rfl
@[simp] theorem withdrawHostcmd_trace (s : State) : (withdrawHostcmd s).trace = s.trace := rfl

/-! ### takePlaced -/

@[simp] theorem takePlaced_cfg (s : State) : (takePlaced s).cfg = s.cfg := rfl
@[simp] theorem takePlaced_st (s : State) : (takePlaced s).st = s.st := rfl
@[simp] theorem takePlaced_sub (s : State) : (takePlaced s).sub = s.sub := rfl
@[simp] theorem takePlaced_functional (s : State) : (takePlaced s).functional = s.functional := rfl
@[simp] theorem takePlaced_init (s : State) : (takePlaced s).init = s.init := rfl
@[simp] theorem takePlaced_histValid (s : State) : (takePlaced s).histValid = s.histValid := rfl
@[simp] theorem takePlaced_mode (s : State) : (takePlaced s).mode = s.mode := rfl
@[simp] theorem takePlaced_tcode (s : State) : (takePlaced s).tcode = s.tcode := rfl
@[simp] theorem takePlaced_psrBase (s : State) : (takePlaced s).psrBase = s.psrBase := rfl
@[simp] theorem takePlaced_psrTmp0 (s : State) : (takePlaced s).psrTmp0 = s.psrTmp0 := rfl
@[simp] theorem takePlaced_counter (s : State) : (takePlaced s).counter = s.counter := rfl
@[simp] theorem takePlaced_fue (s : State) : (takePlaced s).fue = s.fue := rfl
@[simp] theorem takePlaced_otpBank (s : State) : (takePlaced s).otpBank = s.otpBank := rfl
@[simp] theorem takePlaced_otpSkip (s : State) : (takePlaced s).otpSkip = s.otpSkip := rfl
@[simp] theorem takePlaced_status (s : State) : (takePlaced s).status = s.status := rfl
@[simp] theorem takePlaced_dc (s : State) : (takePlaced s).dc = s.dc := rfl
@[simp] theorem takePlaced_rst (s : State) : (takePlaced s).rst = s.rst := rfl
@[simp] theorem takePlaced_attached (s : State) : (takePlaced s).attached = s.attached := rfl
@[simp] theorem takePlaced_pf (s : State) : (takePlaced s).pf = s.pf := rfl
@[simp] theorem takePlaced_hf (s : State) : (takePlaced s).hf = s.hf := rfl
@[simp] theorem takePlaced_trace (s : State) : (takePlaced s).trace = s.trace := rfl
@[simp] theorem takePlaced_placed (s : State) : (takePlaced s).inp.placed = none := rfl
@[simp] theorem takePlaced_hostcmd (s : State) : (takePlaced s).inp.hostcmd = s.inp.hostcmd := rfl
@[simp] theorem takePlaced_hostcmdValid (s : State) : (takePlaced s).inp.hostcmdValid = s.inp.hostcmdValid := rfl
@[simp] theorem takePlaced_temp (s : State) : (takePlaced s).inp.temp = s.inp.temp := rfl
@[simp] theorem takePlaced_fullUpdateEvery (s : State) : (takePlaced s).inp.fullUpdateEvery = s.inp.fullUpdateEvery := rfl
@[simp] theorem takePlaced_busy (s : State) : (takePlaced s).inp.busy = s.inp.busy := rfl
@[simp] theorem takePlaced_lf (s : State) : (takePlaced s).inp.lf = s.inp.lf := rfl
@[simp] theorem takePlaced_statuses (s : State) : (takePlaced s).inp.statuses = s.inp.statuses := rfl
@[simp] theorem takePlaced_readBytes (s : State) : (takePlaced s).inp.readBytes = s.inp.readBytes := rfl
@[simp] theorem takePlaced_waitOutcomes (s : State) : (takePlaced s).inp.waitOutcomes = s.inp.waitOutcomes := rfl
@[simp] theorem takePlaced_draws (s : State) : (takePlaced s).inp.draws = s.inp.draws := rfl

/-! ### driveDc -/

@[simp] theorem driveDc_cfg (l : DcLevel) (s : State) : (driveDc l s).cfg = s.cfg := rfl
@[simp] theorem driveDc_st (l : DcLevel) (s : State) : (driveDc l s).st = s.st := rfl
@[simp] theorem driveDc_sub (l : DcLevel) (s : State) : (driveDc l s).sub = s.sub := rfl
@[simp] theorem driveDc_functional (l : DcLevel) (s : State) : (driveDc l s).functional = s.functional := rfl
@[simp] theorem driveDc_init (l : DcLevel) (s : State) : (driveDc l s).init = s.init := rfl
@[simp] theorem driveDc_histValid (l : DcLevel) (s : State) : (driveDc l s).histValid = s.histValid := rfl
@[simp] theorem driveDc_mode (l : DcLevel) (s : State) : (driveDc l s).mode = s.mode := rfl
@[simp] theorem driveDc_tcode (l : DcLevel) (s : State) : (driveDc l s).tcode = s.tcode := rfl
@[simp] theorem driveDc_psrBase (l : DcLevel) (s : State) : (driveDc l s).psrBase = s.psrBase := rfl
@[simp] theorem driveDc_psrTmp0 (l : DcLevel) (s : State) : (driveDc l s).psrTmp0 = s.psrTmp0 := rfl
@[simp] theorem driveDc_counter (l : DcLevel) (s : State) : (driveDc l s).counter = s.counter := rfl
@[simp] theorem driveDc_fue (l : DcLevel) (s : State) : (driveDc l s).fue = s.fue := rfl
@[simp] theorem driveDc_otpBank (l : DcLevel) (s : State) : (driveDc l s).otpBank = s.otpBank := rfl
@[simp] theorem driveDc_otpSkip (l : DcLevel) (s : State) : (driveDc l s).otpSkip = s.otpSkip := rfl
@[simp] theorem driveDc_status (l : DcLevel) (s : State) : (driveDc l s).status = s.status := rfl
@[simp] theorem driveDc_dc (l : DcLevel) (s : State) : (driveDc l s).dc = l := rfl
@[simp] theorem driveDc_rst (l : DcLevel) (s : State) : (driveDc l s).rst = s.rst := rfl
@[simp] theorem driveDc_attached (l : DcLevel) (s : State) : (driveDc l s).attached = s.attached := rfl
@[simp] theorem driveDc_pf (l : DcLevel) (s : State) : (driveDc l s).pf = s.pf := rfl
@[simp] theorem driveDc_hf (l : DcLevel) (s : State) : (driveDc l s).hf = s.hf := rfl
@[simp] theorem driveDc_inp (l : DcLevel) (s : State) : (driveDc l s).inp = s.inp := rfl
@[simp] theorem driveDc_trace (l : DcLevel) (s : State) : (driveDc l s).trace = s.trace := rfl

/-! ### record -/

@[simp] theorem record_cfg (s : State) : (record s).cfg = s.cfg := rfl
@[simp] theorem record_st (s : State) : (record s).st = s.st := rfl
@[simp] theorem record_sub (s : State) : (record s).sub = s.sub := rfl
@[simp] theorem record_functional (s : State) : (record s).functional = s.functional := rfl
@[simp] theorem record_init (s : State) : (record s).init = s.init := rfl
@[simp] theorem record_histValid (s : State) : (record s).histValid = true := rfl
@[simp] theorem record_mode (s : State) : (record s).mode = s.mode := rfl
@[simp] theorem record_tcode (s : State) : (record s).tcode = s.tcode := rfl
@[simp] theorem record_psrBase (s : State) : (record s).psrBase = s.psrBase := rfl
@[simp] theorem record_psrTmp0 (s : State) : (record s).psrTmp0 = s.psrTmp0 := rfl
@[simp] theorem record_counter (s : State) : (record s).counter = s.counter := rfl
@[simp] theorem record_fue (s : State) : (record s).fue = s.fue := rfl
@[simp] theorem record_otpBank (s : State) : (record s).otpBank = s.otpBank := rfl
@[simp] theorem record_otpSkip (s : State) : (record s).otpSkip = s.otpSkip := rfl
@[simp] theorem record_status (s : State) : (record s).status = s.status := rfl
@[simp] theorem record_dc (s : State) : (record s).dc = s.dc := rfl
@[simp] theorem record_rst (s : State) : (record s).rst = s.rst := rfl
@[simp] theorem record_attached (s : State) : (record s).attached = s.attached := rfl
@[simp] theorem record_pf (s : State) : (record s).pf = s.pf := rfl
@[simp] theorem record_hf (s : State) : (record s).hf = s.pf := rfl
@[simp] theorem record_inp (s : State) : (record s).inp = s.inp := rfl
@[simp] theorem record_trace (s : State) : (record s).trace = s.trace := rfl

/-! ### takeOutcome -/

@[simp] theorem takeOutcome_cfg (s : State) : (takeOutcome s).cfg = s.cfg := by
  unfold takeOutcome; split <;> rfl
@[simp] theorem takeOutcome_st (s : State) : (takeOutcome s).st = s.st := by
  unfold takeOutcome; split <;> rfl
@[simp] theorem takeOutcome_sub (s : State) : (takeOutcome s).sub = s.sub := by
  unfold takeOutcome; split <;> rfl
@[simp] theorem takeOutcome_functional (s : State) : (takeOutcome s).functional = s.functional := by
  unfold takeOutcome; split <;> rfl
@[simp] theorem takeOutcome_init (s : State) : (takeOutcome s).init = s.init := by
  unfold takeOutcome; split <;> rfl
@[simp] theorem takeOutcome_histValid (s : State) : (takeOutcome s).histValid = s.histValid := by
  unfold takeOutcome; split <;> rfl
@[simp] theorem takeOutcome_mode (s : State) : (takeOutcome s).mode = s.mode := by
  unfold takeOutcome; split <;> rfl
@[simp] theorem takeOutcome_tcode (s : State) : (takeOutcome s).tcode = s.tcode := by
  unfold takeOutcome; split <;> rfl
@[simp] theorem takeOutcome_psrBase (s : State) : (takeOutcome s).psrBase = s.psrBase := by
  unfold takeOutcome; split <;> rfl
@[simp] theorem takeOutcome_psrTmp0 (s : State) : (takeOutcome s).psrTmp0 = s.psrTmp0 := by
  unfold takeOutcome; split <;> rfl
@[simp] theorem takeOutcome_counter (s : State) : (takeOutcome s).counter = s.counter := by
  unfold takeOutcome; split <;> rfl
@[simp] theorem takeOutcome_fue (s : State) : (takeOutcome s).fue = s.fue := by
  unfold takeOutcome; split <;> rfl
@[simp] theorem takeOutcome_otpBank (s : State) : (takeOutcome s).otpBank = s.otpBank := by
  unfold takeOutcome; split <;> rfl
@[simp] theorem takeOutcome_otpSkip (s : State) : (takeOutcome s).otpSkip = s.otpSkip := by
  unfold takeOutcome; split <;> rfl
@[simp] theorem takeOutcome_status (s : State) : (takeOutcome s).status = s.status := by
  unfold takeOutcome; split <;> rfl
@[simp] theorem takeOutcome_dc (s : State) : (takeOutcome s).dc = s.dc := by
  unfold takeOutcome; split <;> rfl
@[simp] theorem takeOutcome_rst (s : State) : (takeOutcome s).rst = s.rst := by
  unfold takeOutcome; split <;> rfl
@[simp] theorem takeOutcome_attached (s : State) : (takeOutcome s).attached = s.attached := by
  unfold takeOutcome; split <;> rfl
@[simp] theorem takeOutcome_pf (s : State) : (takeOutcome s).pf = s.pf := by
  unfold takeOutcome; split <;> rfl
@[simp] theorem takeOutcome_hf (s : State) : (takeOutcome s).hf = s.hf := by
  unfold takeOutcome; split <;> rfl
@[simp] theorem takeOutcome_trace (s : State) : (takeOutcome s).trace = s.trace := by
  unfold takeOutcome; split <;> rfl

/-! ### The reset state -/

@[simp] theorem resetWith_cfg (c : Config) : (State.resetWith c).cfg = c := rfl
@[simp] theorem resetWith_st (c : Config) : (State.resetWith c).st = .idle := rfl
@[simp] theorem resetWith_inp (c : Config) : (State.resetWith c).inp = Inputs.undriven := rfl
@[simp] theorem resetWith_trace (c : Config) : (State.resetWith c).trace = [] := rfl

end Sys2Proof.Machine
end

