-- ==== Sys2Proof/Laws/Ops.lean ====
section
/-! SUPPORT. What each shared operation can do, said once: sequencing of outcomes, transactions, waits,
errors, and the frame that every instruction made of transactions keeps. -/

namespace Sys2Proof.Machine

/-! ### Sequencing -/

@[simp] theorem andThen_next (s : State) (f : State → Host.Outcome State Fault Refusal) :
    andThen (.next s) f = f s := rfl

@[simp] theorem andThen_fault (r : Fault) (f : State → Host.Outcome State Fault Refusal) :
    andThen (.fault r) f = .fault r := rfl

@[simp] theorem andThen_refused (r : Refusal) (f : State → Host.Outcome State Fault Refusal) :
    andThen (.refused r) f = .refused r := rfl

/-- A sequence answers a next state exactly when both parts do. -/
theorem andThen_eq_next {o : Host.Outcome State Fault Refusal}
    {f : State → Host.Outcome State Fault Refusal} {t : State} :
    andThen o f = .next t ↔ ∃ s, o = .next s ∧ f s = .next t := by
  cases o <;> simp

theorem andThen_assoc (o : Host.Outcome State Fault Refusal)
    (f g : State → Host.Outcome State Fault Refusal) :
    andThen (andThen o f) g = andThen o (fun s => andThen (f s) g) := by
  cases o <;> rfl

/-- Going on with nothing changes nothing. -/
theorem andThen_next_right (o : Host.Outcome State Fault Refusal) :
    andThen o Host.Outcome.next = o := by
  cases o <;> rfl

@[simp] theorem mapNext_next (f : State → State) (s : State) :
    mapNext f (.next s) = .next (f s) := rfl

@[simp] theorem mapNext_fault (f : State → State) (r : Fault) : mapNext f (.fault r) = .fault r := rfl

@[simp] theorem mapNext_refused (f : State → State) (r : Refusal) :
    mapNext f (.refused r) = .refused r := rfl

theorem mapNext_eq_next {f : State → State} {o : Host.Outcome State Fault Refusal} {t : State} :
    mapNext f o = .next t ↔ ∃ s, o = .next s ∧ f s = t := by
  cases o <;> simp [mapNext]

/-- Runs compose. -/
theorem runSteps_add (m n : Nat) (s : State) :
    runSteps (m + n) s = andThen (runSteps m s) (runSteps n) := by
  induction m generalizing s with
  | zero => simp [runSteps]
  | succ m ih =>
    rw [Nat.add_right_comm]
    simp only [runSteps, andThen_assoc]
    congr 1
    exact funext fun u => ih u

theorem runInstrs_append (l l' : List Instr) (s : State) :
    runInstrs (l ++ l') s = andThen (runInstrs l s) (runInstrs l') := by
  induction l generalizing s with
  | nil => rfl
  | cons i l ih =>
    simp only [List.cons_append, runInstrs, andThen_assoc]
    congr 1
    exact funext fun u => ih u

/-! ### Errors -/

/-- Raising an error sets its flag. -/
theorem statusFlag_setStatus_self (st : BitVec 4) (k : ErrKind) : statusFlag (setStatus st k) k = true := by
  revert st k
  have h : ∀ st : BitVec 4, ∀ k ∈ [ErrKind.bus, .busyTimeout, .calibration, .configuration],
      statusFlag (setStatus st k) k = true := by decide
  intro st k
  exact h st k (by cases k <;> simp)

/-- Raising an error leaves the other flags as they are (R283). -/
theorem statusFlag_setStatus_of_ne (st : BitVec 4) {j k : ErrKind} (h : j ≠ k) :
    statusFlag (setStatus st k) j = statusFlag st j := by
  have key : ∀ st : BitVec 4, ∀ j ∈ [ErrKind.bus, .busyTimeout, .calibration, .configuration],
      ∀ k ∈ [ErrKind.bus, .busyTimeout, .calibration, .configuration], j ≠ k →
        statusFlag (setStatus st k) j = statusFlag st j := by decide
  exact key st j (by cases j <;> simp) k (by cases k <;> simp) h

/-- A flag that is set stays set when an error is raised. -/
theorem statusFlag_setStatus_of_set {st : BitVec 4} {j : ErrKind} (k : ErrKind)
    (h : statusFlag st j = true) : statusFlag (setStatus st k) j = true := by
  by_cases hjk : j = k
  · exact hjk ▸ statusFlag_setStatus_self st j
  · rw [statusFlag_setStatus_of_ne st hjk, h]

/-! ### Transactions -/

/-- An attached device lets a transaction through. -/
theorem requireDevice_of_attached {f : State → State} {s : State} (h : s.attached ≠ .none) :
    requireDevice f s = .next (f s) := by
  unfold requireDevice
  split <;> simp_all

theorem requireDevice_of_none {f : State → State} {s : State} (h : s.attached = .none) :
    requireDevice f s = .fault .transactionWithoutDevice := by
  simp [requireDevice, h]

/-- A transaction answers a next state exactly when a device is attached. -/
theorem requireDevice_eq_next {f : State → State} {s t : State} :
    requireDevice f s = .next t ↔ s.attached ≠ .none ∧ f s = t := by
  cases h : s.attached <;> simp [requireDevice, h]

/-- A transaction that succeeds (R180 to R182): one event, DC at its rest level, one status drawn. -/
theorem sendTransaction_of_ok {l : DcLevel} {ev : DcLevel → TxStatus → Event} {s : State}
    (h : nextStatus s = .ok) :
    sendTransaction l ev s = { s with
      dc := .data, inp := s.inp.drawn s.inp.statuses.tail s.inp.readBytes (s.inp.draws + 1),
      trace := s.trace ++ [ev l .ok] } := by
  simp [sendTransaction, h, emit, driveDc, takeStatus, Inputs.drawn]

/-- A transaction that fails (R180 to R182, R272): as a successful one, with the status in the event, and
BusTransactionError raised. -/
theorem sendTransaction_of_err {l : DcLevel} {ev : DcLevel → TxStatus → Event} {s : State}
    (h : nextStatus s = .err) :
    sendTransaction l ev s = { s with
      dc := .data, inp := s.inp.drawn s.inp.statuses.tail s.inp.readBytes (s.inp.draws + 1),
      status := setStatus s.status .bus, trace := s.trace ++ [ev l .err, .err .bus] } := by
  simp [sendTransaction, h, emit, driveDc, takeStatus, Inputs.drawn, raise]

/-- A read (R183): one event with the answer, DC at data level, no error of its own. -/
theorem readTransaction_eq (s : State) :
    readTransaction s = { s with
      dc := .data,
      inp := s.inp.drawn s.inp.statuses.tail s.inp.readBytes.tail (s.inp.draws + 1),
      trace := s.trace ++ [.rd .data 0x00 (nextByte s) (nextStatus s)] } := by
  simp [readTransaction, emit, driveDc, takeStatusAndByte, Inputs.drawn, readTxByte]

/-- BUS_ERR is bit 0 (R26). -/
theorem setStatus_bus (st : BitVec 4) : setStatus st .bus = st ||| 0b0001#4 := rfl

/-- BUSY_TO is bit 1 (R26). -/
theorem setStatus_busyTimeout (st : BitVec 4) : setStatus st .busyTimeout = st ||| 0b0010#4 := rfl

/-- CAL_FAIL is bit 2 (R26). -/
theorem setStatus_calibration (st : BitVec 4) : setStatus st .calibration = st ||| 0b0100#4 := rfl

/-- CONFIG_ERR is bit 3 (R26). -/
theorem setStatus_configuration (st : BitVec 4) : setStatus st .configuration = st ||| 0b1000#4 := rfl

/-! ### The frame of transactions -/

namespace TransactionFrame

variable {s t u : State}

/-- What the frame says of each register. -/
theorem fields (h : TransactionFrame s t) :
    t.cfg = s.cfg ∧ t.st = s.st ∧ t.sub = s.sub ∧ t.functional = s.functional ∧ t.init = s.init ∧
    t.histValid = s.histValid ∧ t.mode = s.mode ∧ t.tcode = s.tcode ∧ t.psrBase = s.psrBase ∧
    t.psrTmp0 = s.psrTmp0 ∧ t.counter = s.counter ∧ t.fue = s.fue ∧ t.otpBank = s.otpBank ∧
    t.otpSkip = s.otpSkip ∧ t.dc = .data ∧ t.rst = s.rst ∧ t.attached = s.attached ∧ t.pf = s.pf ∧
    t.hf = s.hf := by
  rw [h.1]
  exact ⟨rfl, rfl, rfl, rfl, rfl, rfl, rfl, rfl, rfl, rfl, rfl, rfl, rfl, rfl, rfl, rfl, rfl, rfl, rfl⟩

/-- What the frame says of the ports. -/
theorem ports (h : TransactionFrame s t) :
    t.inp.hostcmd = s.inp.hostcmd ∧ t.inp.hostcmdValid = s.inp.hostcmdValid ∧ t.inp.temp = s.inp.temp ∧
    t.inp.fullUpdateEvery = s.inp.fullUpdateEvery ∧ t.inp.busy = s.inp.busy ∧ t.inp.lf = s.inp.lf ∧
    t.inp.waitOutcomes = s.inp.waitOutcomes ∧ t.inp.placed = s.inp.placed := by
  rw [h.1]
  exact ⟨rfl, rfl, rfl, rfl, rfl, rfl, rfl, rfl⟩

/-- Frames compose. -/
theorem trans (h : TransactionFrame s t) (h' : TransactionFrame t u) : TransactionFrame s u := by
  refine ⟨?_, ?_, h.2.2.trans h'.2.2⟩
  · rw [h'.1, h.1]
  · have hor : ∀ st : BitVec 4, st ||| 0b0001#4 ||| 0b0001#4 = st ||| 0b0001#4 := by decide
    rcases h.2.1 with h1 | h1 <;> rcases h'.2.1 with h2 | h2 <;> simp [h1, h2, hor]

end TransactionFrame

/-- A transaction keeps the frame. -/
theorem transactionFrame_sendTransaction (l : DcLevel) (ev : DcLevel → TxStatus → Event) (s : State) :
    TransactionFrame s (sendTransaction l ev s) := by
  cases h : nextStatus s
  · rw [sendTransaction_of_ok h]
    exact ⟨rfl, .inl rfl, List.prefix_append _ _⟩
  · rw [sendTransaction_of_err h]
    exact ⟨rfl, .inr rfl, List.prefix_append _ _⟩

/-- A read keeps the frame. -/
theorem transactionFrame_readTransaction (s : State) : TransactionFrame s (readTransaction s) := by
  rw [readTransaction_eq]
  exact ⟨rfl, .inl rfl, List.prefix_append _ _⟩

/-- `send_data` keeps the frame, whatever the environment answers. -/
theorem transactionFrame_sendData {bytes : List Byte} {s t : State} (hne : bytes ≠ [])
    (h : sendData bytes s = .next t) : TransactionFrame s t := by
  induction bytes generalizing s with
  | nil => exact absurd rfl hne
  | cons b rest ih =>
    obtain ⟨u, hu, hrest⟩ := andThen_eq_next.1 h
    have hsu : TransactionFrame s u := by
      obtain ⟨-, rfl⟩ := requireDevice_eq_next.1 hu
      exact transactionFrame_sendTransaction _ _ _
    cases rest with
    | nil =>
      simp only [sendData, Host.Outcome.next.injEq] at hrest
      exact hrest ▸ hsu
    | cons c rest => exact hsu.trans (ih (by simp) hrest)

@[simp] theorem erased_nil : erased [] = [] := rfl

/-- Erasing a trace goes piece by piece. -/
theorem erased_append (l l' : List Event) : erased (l ++ l') = erased l ++ erased l' := by
  simp [erased]

theorem erased_cons {ev e : Event} (h : ev.erase = some e) (l : List Event) :
    erased (ev :: l) = e :: erased l := by
  simp [erased, h]

theorem erased_cons_err (k : ErrKind) (l : List Event) : erased (.err k :: l) = erased l := rfl

/-- A transaction's trace, statuses erased and ERR events deleted, is its one event. -/
theorem erased_sendTransaction {l : DcLevel} {ev : DcLevel → TxStatus → Event} {e : Event}
    (hev : ∀ st, (ev l st).erase = some e) (s : State) :
    ∃ evs, (sendTransaction l ev s).trace = s.trace ++ evs ∧ erased evs = [e] := by
  cases h : nextStatus s
  · exact ⟨[ev l .ok], by rw [sendTransaction_of_ok h], by simp [erased_cons (hev _)]⟩
  · exact ⟨[ev l .err, .err .bus], by rw [sendTransaction_of_err h],
      by simp [erased_cons (hev _), erased_cons_err]⟩

/-! ### The sequencer's primitives under every answer -/

/-- What a run of transactions does, under every answer: it answers a next state, its trace grows by events
that erase to `l`, and it keeps the frame. -/
def Sends (l : List Event) (s : State) (o : Host.Outcome State Fault Refusal) : Prop :=
  ∃ t evs, o = .next t ∧ t.trace = s.trace ++ evs ∧ erased evs = l ∧ TransactionFrame s t

/-- `send_command` sends its byte (R180). -/
theorem sends_sendCommand (a : Byte) {s : State} (hd : s.attached ≠ .none) :
    Sends [evCmd a] s (sendCommand a s) := by
  obtain ⟨evs, h1, h2⟩ := erased_sendTransaction (l := .command) (ev := fun dc st => .cmd dc a st)
    (e := evCmd a) (fun _ => rfl) s
  exact ⟨_, evs, requireDevice_of_attached hd, h1, h2, transactionFrame_sendTransaction _ _ _⟩

/-- `send_frame` sends its frame (R182). -/
theorem sends_sendFrame (src : FrameSrc) {s : State} (hd : s.attached ≠ .none) :
    Sends [evBulk (framePayload s src)] s (sendFrame src s) := by
  obtain ⟨evs, h1, h2⟩ := erased_sendTransaction (l := .data)
    (ev := fun dc st => .bulk dc (framePayload s src) st) (e := evBulk (framePayload s src))
    (fun _ => rfl) s
  exact ⟨_, evs, requireDevice_of_attached hd, h1, h2, transactionFrame_sendTransaction _ _ _⟩

/-- One thing sent after another; both see the same registers. -/
theorem sends_andThen {o : Host.Outcome State Fault Refusal}
    {g : State → Host.Outcome State Fault Refusal} {s : State} {l l' : List Event}
    (hd : s.attached ≠ .none) (ho : Sends l s o)
    (hg : ∀ u, TransactionFrame s u → u.attached ≠ .none → Sends l' u (g u)) :
    Sends (l ++ l') s (andThen o g) := by
  obtain ⟨u, evs, rfl, h2, h3, h4⟩ := ho
  have hu : u.attached = s.attached := by rw [h4.1]
  obtain ⟨t, evs', h5, h6, h7, h8⟩ := hg u h4 (by rw [hu]; exact hd)
  exact ⟨t, evs ++ evs', h5, by rw [h6, h2, List.append_assoc], by rw [erased_append, h3, h7],
    h4.trans h8⟩

/-- `send_data` sends every byte of its list (R181). -/
theorem sends_sendData {bytes : List Byte} (hne : bytes ≠ []) {s : State} (hd : s.attached ≠ .none) :
    Sends (bytes.map evDat) s (sendData bytes s) := by
  induction bytes generalizing s with
  | nil => exact absurd rfl hne
  | cons b rest ih =>
    have hb : Sends [evDat b] s (sendByte b s) := by
      obtain ⟨evs, h1, h2⟩ := erased_sendTransaction (l := .data) (ev := fun dc st => .dat dc b st)
        (e := evDat b) (fun _ => rfl) s
      exact ⟨_, evs, requireDevice_of_attached hd, h1, h2, transactionFrame_sendTransaction _ _ _⟩
    cases rest with
    | nil => simpa [sendData, andThen_next_right] using hb
    | cons c rest => exact sends_andThen hd hb fun u _ hu => ih (by simp) hu

/-- The payload of a frame is the same before and after a transaction. -/
theorem framePayload_eq {s u : State} (h : TransactionFrame s u) (src : FrameSrc) :
    framePayload u src = framePayload s src := by
  cases src <;> rw [h.1] <;> rfl

/-! ### Waits -/

/-- A wait that finds BUSY ready (R185, the law on the draw). -/
theorem waitBusy_of_ready {s : State} (h : s.inp.busy = .ready) :
    waitBusy s = { s with trace := s.trace ++ [.bwait .readySeen] } := by
  simp [waitBusy, nextOutcome, takeOutcome, h, emit]

/-- A wait that sees BUSY become ready (R185). -/
theorem waitBusy_of_readySeen {s : State} (hb : s.inp.busy = .notReady) (h : nextOutcome s = .readySeen) :
    waitBusy s = { s with
      inp := { s.inp with waitOutcomes := s.inp.waitOutcomes.tail, draws := s.inp.draws + 1 },
      trace := s.trace ++ [.bwait .readySeen] } := by
  simp [waitBusy, h, takeOutcome, hb, emit]

/-- A wait that ends by timeout (R185, R273). -/
theorem waitBusy_of_timeout {s : State} (hb : s.inp.busy = .notReady) (h : nextOutcome s = .timeout) :
    waitBusy s = { s with
      status := setStatus s.status .busyTimeout,
      inp := { s.inp with waitOutcomes := s.inp.waitOutcomes.tail, draws := s.inp.draws + 1 },
      trace := s.trace ++ [.bwait .timeout, .err .busyTimeout] } := by
  simp [waitBusy, h, takeOutcome, hb, emit, raise]

/-- Everything a wait can do: one event, and one ERR event with its flag on a timeout (R185, R273). -/
theorem waitBusy_cases (s : State) : ∃ st w n evs,
    waitBusy s = { s with
      status := st, inp := { s.inp with waitOutcomes := w, draws := n }, trace := s.trace ++ evs } ∧
    (st = s.status ∨ st = setStatus s.status .busyTimeout) ∧ erased evs = [evBwait] := by
  cases hb : s.inp.busy
  · exact ⟨s.status, s.inp.waitOutcomes, s.inp.draws, [.bwait .readySeen], waitBusy_of_ready hb,
      .inl rfl, rfl⟩
  · cases h : nextOutcome s
    · exact ⟨s.status, _, _, [.bwait .readySeen], waitBusy_of_readySeen hb h, .inl rfl, rfl⟩
    · exact ⟨_, _, _, [.bwait .timeout, .err .busyTimeout], waitBusy_of_timeout hb h, .inr rfl, rfl⟩

/-! ### Host accesses to LF -/

/-- `LF := all 0x00` leaves nothing listed, so that every byte reads 0x00 (R111). -/
theorem clearLf_eq (s : State) : clearLf s = { s with inp := { s.inp with lf := [] } } := by
  have h : ∀ a n, memoryFrom (fun _ => unlistedByte) a n = [] := by
    intro a n
    induction n generalizing a with
    | zero => rfl
    | succ n ih => exact ih (a + 1)
  exact congrArg (fun m => { s with inp := { s.inp with lf := m } }) (h 0 s.cfg.frameBytes)

/-- A host write to LF keeps the frames canonical, and answers a next state exactly inside the frame. -/
theorem writeLf_eq_next {a : Nat} {v : Byte} {s t : State} (h : writeLf a v s = .next t) :
    a < s.cfg.frameBytes ∧
      t = { s with inp := { s.inp with lf := writeByte s.inp.lf a v } } ∧
      (FramesCanonical s → FramesCanonical t) := by
  unfold writeLf at h
  split at h
  · obtain rfl : _ = t := by simpa using h
    exact ⟨‹_›, rfl, fun hf => ⟨memoryWf_writeByte hf.lf a v, hf.pf, hf.hf, hf.pfWithin, hf.hfWithin⟩⟩
  · simp at h

end Sys2Proof.Machine
end

