-- ==== Sys2Proof/Laws/Step.lean ====
section
/-! SUPPORT. What a step can do: the inversion of `step`, the instructions each state can fetch, and the
frame of everything that is not a host operation. -/

namespace Sys2Proof.Machine

/-! ### Inverting a step -/

theorem stepRefusal_eq_none {s : State} :
    stepRefusal s = none ↔ s.st = .idle ∨ (s.inp.hostcmdValid = false ∧ s.cfg.paramsOk = true) := by
  unfold stepRefusal
  cases s.inp.hostcmdValid <;> cases s.cfg.paramsOk <;> by_cases h : s.st = .idle <;> simp [h]

/-- With nothing placed a step is the block's own. -/
theorem step_of_unplaced {s : State} (h : s.inp.placed = none) : step s = blockStep s := by
  unfold step
  rw [h]

/-- A placed instruction runs once, and nothing follows it (log entry 18). -/
theorem step_of_placed {s : State} {i : Instr} (h : s.inp.placed = some i) :
    step s = exec i (takePlaced s) := by
  unfold step
  rw [h]

/-- A step answers a next state exactly when it is not refused and either there is nothing to run and the
bookkeeping follows, or the fetched instruction runs and `sequence` follows. -/
theorem step_eq_next {s t : State} (hp : s.inp.placed = none) :
    step s = .next t ↔ stepRefusal s = none ∧
      ((fetch s = none ∧ bookkeep s = t) ∨
        ∃ i u, fetch s = some i ∧ exec i s = .next u ∧ sequence s u = t) := by
  rw [step_of_unplaced hp]
  unfold blockStep
  cases stepRefusal s <;> cases fetch s <;> simp [andThen_eq_next]

/-- A step with nothing to run. -/
theorem step_of_fetch_none {s : State} (hp : s.inp.placed = none) (hr : stepRefusal s = none) (hf : fetch s = none) :
    step s = .next (bookkeep s) :=
  (step_eq_next hp).2 ⟨hr, .inl ⟨hf, rfl⟩⟩

/-- A step that runs an instruction. -/
theorem step_of_fetch {s u : State} {i : Instr} (hp : s.inp.placed = none) (hr : stepRefusal s = none)
    (hf : fetch s = some i) (he : exec i s = .next u) : step s = .next (sequence s u) :=
  (step_eq_next hp).2 ⟨hr, .inr ⟨i, u, hf, he, rfl⟩⟩

/-- The host codes that name an operation, and the operations they name (R90, R92). -/
theorem decodeHost_eq_ok {b : Byte} {i : Instr} :
    decodeHost b = .ok i ↔ (b = 0x01 ∧ i = .setup) ∨ (b = 0x02 ∧ i = .update) ∨
      (b = 0x03 ∧ i = .forceFull) := by
  unfold decodeHost
  split
  · subst b; simp [eq_comm]
  · split
    · subst b; simp [eq_comm]
    · split
      · subst b; simp [eq_comm]
      · simp_all

/-- The instruction fetched is one of those the state has still to run. -/
theorem mem_remaining_of_fetch {s : State} {i : Instr} (h : fetch s = some i) : i ∈ remaining s :=
  List.mem_of_mem_head? h

/-- In Idle a step fetches the host operation presented, and no other instruction (R250). -/
theorem fetch_idle {s : State} {i : Instr} (hs : s.st = .idle) :
    fetch s = some i ↔ s.inp.hostcmdValid = true ∧ decodeHost s.inp.hostcmd = .ok i := by
  unfold fetch remaining
  rw [hs]
  cases s.inp.hostcmdValid
  · simp
  · cases decodeHost s.inp.hostcmd <;> simp

/-- The micro-operations of a panel command are transactions. -/
theorem mem_unitOps {s : State} {i j : Instr} (h : i ∈ unitOps s j) :
    (∃ a, i = .cmd a) ∨ (∃ b, i = .dat b) ∨ (∃ src, i = .bulk src) := by
  cases j <;> simp [unitOps, wr1, wr2, wrf, commandOps] at h <;> grind

/-- The micro-operations of a command sent twice are command bytes (R107). -/
theorem mem_twice {a : Byte} {i : Instr} (h : i ∈ twice a) : i = .cmd a := by
  simpa [twice] using h

/-- The micro-operations of Configuring are the hook's and transactions (R205). -/
theorem mem_configuringOps {s : State} {i : Instr} (h : i ∈ configuringOps s) :
    (∃ m ∈ s.cfg.preConfigHook, i = m.instr) ∨ ∃ j, i ∈ unitOps s j := by
  unfold configuringOps at h
  simp only [List.mem_append] at h
  rcases h with ((((h | h) | h) | h) | h) | h
  · obtain ⟨m, hm, rfl⟩ := List.mem_map.1 h
    exact .inl ⟨m, hm, rfl⟩
  · exact .inr ⟨_, h⟩
  · exact .inr ⟨_, h⟩
  · split at h
    · exact .inr ⟨_, h⟩
    · simp at h
  · exact .inr ⟨_, h⟩
  · split at h
    · exact .inr ⟨_, h⟩
    · simp at h

/-- The micro-operations of TransmittingFrame1 are transactions (R206). -/
theorem mem_frame1Ops {s : State} {i : Instr} (h : i ∈ frame1Ops s) : ∃ j, i ∈ unitOps s j := by
  unfold frame1Ops at h
  split at h
  · simp only [List.mem_append] at h
    rcases h with (h | h) | h <;> exact ⟨_, h⟩
  · rw [List.nil_append] at h
    exact ⟨_, h⟩

/-- The micro-operations of TransmittingFrame2 are transactions (R207). -/
theorem mem_frame2Ops {s : State} {i : Instr} (h : i ∈ frame2Ops s) : ∃ j, i ∈ unitOps s j := by
  unfold frame2Ops at h
  split at h
  · simp only [List.mem_append] at h
    rcases h with h | h | h <;> exact ⟨_, h⟩
  · rw [List.append_nil] at h
    exact ⟨_, h⟩

/-- The micro-operations of SetupCheck move the reset line and the bus device (R158). -/
theorem mem_setupCheckOps {s : State} {i : Instr} (h : i ∈ setupCheckOps s) :
    i = .rstset .high ∨ (∃ d, s.attached = Attached.ofDevice d ∧ i = .detach d) ∨ i = .attach .cal := by
  have hd : i ∈ detachAttached s.attached → ∃ d, s.attached = Attached.ofDevice d ∧ i = .detach d := by
    intro h
    cases ha : s.attached <;> rw [ha] at h <;> simp [detachAttached] at h
    · exact ⟨.cal, rfl, h⟩
    · exact ⟨.wr, rfl, h⟩
  unfold setupCheckOps at h
  split at h <;> simp only [List.cons_append, List.mem_cons, List.mem_append, List.not_mem_nil,
    or_false] at h
  · rcases h with h | h | h
    · exact .inl h
    · exact .inr (.inl (hd h))
    · exact .inr (.inr h)
  · rcases h with h | h
    · exact .inr (.inl (hd h))
    · exact .inr (.inr h)
  · exact .inr (.inr h)

/-- What a state other than Idle can have to run: transactions, reads, waits, the pin and device moves of
its own rule, and in Configuring the hook. -/
theorem mem_remaining {s : State} {i : Instr} (hs : s.st ≠ .idle) (h : i ∈ remaining s) :
    ((∃ a, i = .cmd a) ∨ (∃ b, i = .dat b) ∨ ∃ src, i = .bulk src) ∨ i = .rd ∨ i = .bwait ∨
    (s.st = .hwReset ∧ ((∃ l, i = .rstset l) ∨ ∃ d, i = .delay d)) ∨
    (s.st = .setupCheck ∧ (i = .rstset .high ∨
      (∃ d, s.attached = Attached.ofDevice d ∧ i = .detach d) ∨ i = .attach .cal)) ∨
    (s.st = .setupFin ∧ (i = .detach .cal ∨ i = .attach .wr)) ∨
    (s.st = .configuring ∧ ∃ m ∈ s.cfg.preConfigHook, i = m.instr) := by
  unfold remaining at h
  split at h <;> rename_i hst
  · exact absurd hst hs
  · exact .inr (.inr (.inr (.inr (.inl ⟨hst, mem_setupCheckOps h⟩))))
  · exact .inl (mem_unitOps (List.mem_of_mem_drop h))
  iterate 4 exact .inr (.inl (List.mem_singleton.1 (List.mem_of_mem_drop h)))
  · exact .inr (.inl (List.eq_of_mem_replicate h))
  · have h := List.mem_of_mem_drop h
    simp only [List.mem_cons, List.not_mem_nil, or_false] at h
    exact .inr (.inr (.inr (.inr (.inr (.inl ⟨hst, h⟩)))))
  · have h := List.mem_of_mem_drop h
    simp only [hwResetOps, List.mem_cons, List.not_mem_nil, or_false] at h
    refine .inr (.inr (.inr (.inl ⟨hst, ?_⟩)))
    rcases h with h | h | h | h | h | h | h | h
    all_goals first | exact .inl ⟨_, h⟩ | exact .inr ⟨_, h⟩
  iterate 5 exact .inr (.inr (.inl (List.mem_singleton.1 (List.mem_of_mem_drop h))))
  · rcases mem_configuringOps (List.mem_of_mem_drop h) with h | ⟨j, h⟩
    · exact .inr (.inr (.inr (.inr (.inr (.inr ⟨hst, h⟩)))))
    · exact .inl (mem_unitOps h)
  · obtain ⟨j, h⟩ := mem_frame1Ops (List.mem_of_mem_drop h)
    exact .inl (mem_unitOps h)
  · obtain ⟨j, h⟩ := mem_frame2Ops (List.mem_of_mem_drop h)
    exact .inl (mem_unitOps h)
  iterate 3 exact .inl (.inl ⟨_, mem_twice (List.mem_of_mem_drop h)⟩)

/-- The entries of a well-formed hook are hookable. -/
theorem hookable_of_mem {c : Config} {m : MicroOp} (hc : c.hookWf = true) (h : m ∈ c.preConfigHook) :
    m.hookable = true := by
  simp only [Config.hookWf, Bool.and_eq_true, List.all_eq_true] at hc
  exact hc.1 m h

/-- What `Config.wf` says. -/
theorem config_wf_iff {c : Config} : c.wf = true ↔ c.hookWf = true ∧ c.calHz < c.wrHz := by
  simp [Config.wf, Config.clocksOk]

/-! ### The frame of everything that is not a host operation -/

/-- What any micro-operation, panel command or ERR event may change: the output levels, the attached
device, STATUS (flags are only set), the answers to come and the trace (which only grows). -/
structure MicroFrame (s t : State) : Prop where
  fields : t = { s with
    dc := t.dc, rst := t.rst, attached := t.attached, status := t.status, trace := t.trace,
    inp := { s.inp with
      statuses := t.inp.statuses, readBytes := t.inp.readBytes, waitOutcomes := t.inp.waitOutcomes,
      draws := t.inp.draws } }
  flags : ∀ k, statusFlag s.status k = true → statusFlag t.status k = true
  grows : s.trace <+: t.trace
  restsAtData : s.dc = .data → t.dc = .data

theorem TransactionFrame.micro {s t : State} (h : TransactionFrame s t) : MicroFrame s t where
  fields := by rw [h.1]
  flags k hk := by
    rcases h.2.1 with h1 | h1 <;> rw [h1]
    · exact hk
    · exact statusFlag_setStatus_of_set .bus hk
  grows := h.2.2
  restsAtData _ := by rw [h.1]

/-- A transaction or a panel command that answers a next state keeps the frame of transactions. -/
theorem transactionFrame_of_andThen {f g : State → Host.Outcome State Fault Refusal} {s t : State}
    (hf : ∀ u, f s = .next u → TransactionFrame s u)
    (hg : ∀ u, g u = .next t → TransactionFrame u t) (h : andThen (f s) g = .next t) :
    TransactionFrame s t := by
  obtain ⟨u, h1, h2⟩ := andThen_eq_next.1 h
  exact (hf u h1).trans (hg u h2)

theorem transactionFrame_sendCommand {a : Byte} {s t : State} (h : sendCommand a s = .next t) :
    TransactionFrame s t := by
  obtain ⟨-, rfl⟩ := requireDevice_eq_next.1 h
  exact transactionFrame_sendTransaction _ _ _

theorem transactionFrame_sendFrame {src : FrameSrc} {s t : State} (h : sendFrame src s = .next t) :
    TransactionFrame s t := by
  obtain ⟨-, rfl⟩ := requireDevice_eq_next.1 h
  exact transactionFrame_sendTransaction _ _ _

/-- A wait keeps the frame, and moves no line and no device. -/
theorem microFrame_waitBusy (s : State) :
    MicroFrame s (waitBusy s) ∧ (waitBusy s).dc = s.dc ∧ (waitBusy s).rst = s.rst ∧
      (waitBusy s).attached = s.attached := by
  obtain ⟨st, w, n, evs, h1, h2, -⟩ := waitBusy_cases s
  rw [h1]
  refine ⟨⟨rfl, fun k hk => ?_, List.prefix_append _ _, id⟩, rfl, rfl, rfl⟩
  rcases h2 with rfl | rfl
  · exact hk
  · exact statusFlag_setStatus_of_set _ hk

/-- An instruction that only sends on the bus: CMD, DAT, BULK, RD and the panel commands. -/
def onlyTransactions : Instr → Bool
  | .cmd _ | .dat _ | .bulk _ | .rd => true
  | .tset | .tsetEn | .psr | .border | .vcom | .dtm1 | .dtm2 | .pon | .drf | .pof | .otpRead => true
  | .setup | .update | .forceFull | .bwait | .delay _ | .rstset _ | .attach _ | .detach _ | .err _ => false

/-- Such an instruction keeps the frame of transactions. -/
theorem transactionFrame_exec {i : Instr} {s t : State} (hi : onlyTransactions i = true)
    (h : exec i s = .next t) : TransactionFrame s t := by
  have hd : ∀ {l} {u}, sendData l u = .next t → l ≠ [] → TransactionFrame u t :=
    fun h hl => transactionFrame_sendData hl h
  cases i <;> first | exact (Bool.false_ne_true hi).elim | skip
  case cmd => exact transactionFrame_sendCommand h
  case dat => exact hd h (by simp)
  case bulk => exact transactionFrame_sendFrame h
  case rd =>
    obtain ⟨-, rfl⟩ := requireDevice_eq_next.1 h
    exact transactionFrame_readTransaction s
  case pon | drf | pof | otpRead => exact transactionFrame_sendCommand h
  all_goals
    refine transactionFrame_of_andThen (f := sendCommand _) (fun u => transactionFrame_sendCommand)
      (fun u h => ?_) h
    first
    | exact hd h (by simp)
    | exact transactionFrame_sendFrame h

/-- Everything that is not a host operation keeps the micro frame. -/
theorem microFrame_exec {i : Instr} {s t : State} (hi : i.isHostOp = false)
    (h : exec i s = .next t) : MicroFrame s t := by
  by_cases ht : onlyTransactions i = true
  · exact (transactionFrame_exec ht h).micro
  have keep : ∀ e : Event, s.trace <+: s.trace ++ [e] := fun e => List.prefix_append _ _
  cases i <;> first | exact (Bool.false_ne_true hi.symm).elim | exact absurd rfl ht | skip
  case bwait =>
    obtain rfl : waitBusy s = t := by injection h
    exact (microFrame_waitBusy s).1
  case attach d =>
    simp only [exec, execAttach] at h
    split at h
    · injection h with h
      subst h
      exact ⟨rfl, fun _ => id, keep _, id⟩
    · cases h
  case detach d =>
    simp only [exec, execDetach] at h
    split at h
    · injection h with h
      subst h
      exact ⟨rfl, fun _ => id, keep _, id⟩
    · cases h
  case err k =>
    injection h with h
    subst h
    exact ⟨rfl, fun _ => statusFlag_setStatus_of_set k, keep _, id⟩
  all_goals
    injection h with h
    subst h
    exact ⟨rfl, fun _ => id, keep _, id⟩

/-- A hookable micro-operation moves neither the reset line nor the bus device (R38 items 3 and 5). -/
theorem hookable_exec {m : MicroOp} {s t : State} (hm : m.hookable = true) (h : exec m.instr s = .next t) :
    t.rst = s.rst ∧ t.attached = s.attached := by
  by_cases ht : onlyTransactions m.instr = true
  · rw [(transactionFrame_exec ht h).1]
    exact ⟨rfl, rfl⟩
  cases m <;> first | exact (Bool.false_ne_true hm).elim | exact absurd rfl ht | skip
  case bwait =>
    obtain rfl : waitBusy s = t := by injection h
    exact (microFrame_waitBusy s).2.2
  case delay =>
    injection h with h
    subst h
    exact ⟨rfl, rfl⟩

/-! ### What follows an instruction -/

/-- What `sequence` and `leave` may change: the pc, the flags and registers of the reader, STATUS (flags are
only set), the trace (which only grows) and the presentation on HOSTCMD. -/
structure SequenceFrame (u t : State) : Prop where
  fields : t = { u with
    st := t.st, sub := t.sub, functional := t.functional, init := t.init, psrBase := t.psrBase,
    psrTmp0 := t.psrTmp0, otpBank := t.otpBank, otpSkip := t.otpSkip, status := t.status,
    trace := t.trace, inp := { u.inp with hostcmdValid := t.inp.hostcmdValid } }
  flags : ∀ k, statusFlag u.status k = true → statusFlag t.status k = true
  grows : u.trace <+: t.trace

theorem SequenceFrame.trans {a b c : State} (h : SequenceFrame a b) (h' : SequenceFrame b c) :
    SequenceFrame a c :=
  ⟨by rw [h'.fields, h.fields], fun k hk => h'.flags k (h.flags k hk), h.grows.trans h'.grows⟩

theorem sequenceFrame_goto (q : St) (u : State) : SequenceFrame u (goto q u) :=
  ⟨rfl, fun _ => id, List.prefix_refl _⟩

theorem sequenceFrame_raise (k : ErrKind) (u : State) : SequenceFrame u (raise k u) :=
  ⟨rfl, fun _ => statusFlag_setStatus_of_set k, List.prefix_append _ _⟩

/-- The failure step of the reader (R167). -/
theorem sequenceFrame_calibrationFails (u : State) : SequenceFrame u (calibrationFails u) :=
  (sequenceFrame_raise .calibration u).trans ⟨rfl, fun _ => id, List.prefix_refl _⟩

theorem sequenceFrame_afterRead (st : TxStatus) {good : State → State}
    (hg : ∀ u, SequenceFrame u (good u)) (u : State) : SequenceFrame u (afterRead st good u) := by
  cases st
  · exact hg u
  · exact (sequenceFrame_raise .bus u).trans (sequenceFrame_calibrationFails _)

theorem sequenceFrame_selectBank (p : Byte) (u : State) : SequenceFrame u (selectBank p u) := by
  unfold selectBank
  split <;> exact ⟨rfl, fun _ => id, List.prefix_refl _⟩

theorem sequenceFrame_skipOne (u : State) : SequenceFrame u (skipOne u) := by
  unfold skipOne
  dsimp only
  split <;> exact ⟨rfl, fun _ => id, List.prefix_refl _⟩

theorem sequenceFrame_commit (d : Byte) (u : State) : SequenceFrame u (commit d u) := by
  unfold commit
  split
  · exact ⟨rfl, fun _ => id, List.prefix_refl _⟩
  · exact sequenceFrame_calibrationFails u

theorem sequenceFrame_leave (q : St) (u : State) : SequenceFrame u (leave q u) := by
  cases q <;> exact ⟨rfl, fun _ => id, List.prefix_refl _⟩

theorem sequenceFrame_advance (s u : State) : SequenceFrame u (advance s u) := by
  unfold advance
  split
  · exact sequenceFrame_leave _ _
  · exact ⟨rfl, fun _ => id, List.prefix_refl _⟩

theorem sequenceFrame_sequence (s u : State) : SequenceFrame u (sequence s u) := by
  unfold Machine.sequence
  split
  · exact ⟨rfl, fun _ => id, List.prefix_refl _⟩
  · split
    · exact sequenceFrame_goto _ _
    · exact sequenceFrame_calibrationFails _
  · exact sequenceFrame_afterRead _ (sequenceFrame_goto _) _
  · exact sequenceFrame_afterRead _
      (fun u => (sequenceFrame_selectBank _ u).trans (sequenceFrame_goto _ _)) _
  · exact sequenceFrame_afterRead _ sequenceFrame_skipOne _
  · refine sequenceFrame_afterRead _ (fun u => ?_) _
    exact ⟨rfl, fun _ => id, List.prefix_refl _⟩
  · exact sequenceFrame_afterRead _ (sequenceFrame_commit _) _
  all_goals exact sequenceFrame_advance _ _

/-! ### Everything a step can do -/

/-- A host operation answers a next state in Idle only (R93). -/
theorem idle_of_exec_hostOp {i : Instr} {s t : State} (hi : i.isHostOp = true)
    (h : exec i s = .next t) : s.st = .idle := by
  by_contra hs
  cases i <;> first | exact (Bool.false_ne_true hi).elim | skip
  all_goals simp [exec, execSetup, execUpdate, execForceFull, hs] at h

/-- The steps of the block with nothing placed, one by one: at rest nothing, or one of the three host operations; in flight the
completion step, the silent step out of a list that is done, or one instruction and what follows it. -/
theorem step_cases {s t : State} (hp : s.inp.placed = none) (h : step s = .next t) :
    (s.st = .idle ∧ t = withdrawHostcmd s) ∨
    (Presented 0x01 s ∧ t = withdrawHostcmd
      (if s.cfg.configOk s.inp.fullUpdateEvery then setupStarts s else setupAborts s)) ∨
    (Presented 0x02 s ∧ s.functional = true ∧ s.cfg.configOk s.fue = true ∧
      t = withdrawHostcmd (updateStarts s)) ∨
    (Presented 0x03 s ∧ t = withdrawHostcmd { s with counter := 0 }) ∨
    (s.st ≠ .idle ∧ s.inp.hostcmdValid = false ∧ s.cfg.paramsOk = true ∧
      ((fetch s = none ∧
          ((s.st = .waitBusy5 ∧ t = complete s) ∨ (s.st ≠ .waitBusy5 ∧ t = leave s.st s))) ∨
        ∃ i u, fetch s = some i ∧ i.isHostOp = false ∧ exec i s = .next u ∧ MicroFrame s u ∧
          t = sequence s u)) := by
  obtain ⟨hr, h⟩ := (step_eq_next hp).1 h
  by_cases hs : s.st = .idle
  · rcases h with ⟨-, rfl⟩ | ⟨i, u, hf, he, rfl⟩
    · exact .inl ⟨hs, by simp [bookkeep, hs]⟩
    · obtain ⟨hv, hd⟩ := (fetch_idle hs).1 hf
      have hq : sequence s u = withdrawHostcmd u := by
        unfold Machine.sequence
        rw [hs]
      rw [hq]
      rcases decodeHost_eq_ok.1 hd with ⟨hb, rfl⟩ | ⟨hb, rfl⟩ | ⟨hb, rfl⟩
      · refine .inr (.inl ⟨⟨hs, hv, hb⟩, ?_⟩)
        simp only [exec, execSetup, hs] at he
        split <;> simp_all
      · simp only [exec, execUpdate, hs] at he
        cases hfn : s.functional <;> simp [hfn] at he
        · exact .inl ⟨hs, by rw [he]⟩
        · split at he
          · cases he
            exact .inr (.inr (.inl ⟨⟨hs, hv, hb⟩, rfl, ‹_›, rfl⟩))
          · cases he
      · refine .inr (.inr (.inr (.inl ⟨⟨hs, hv, hb⟩, ?_⟩)))
        simp [exec, execForceFull, hs] at he
        rw [← he, hs]
        rfl
  · have hq := (stepRefusal_eq_none.1 hr).resolve_left hs
    refine .inr (.inr (.inr (.inr ⟨hs, hq.1, hq.2, ?_⟩)))
    rcases h with ⟨hf, rfl⟩ | ⟨i, u, hf, he, rfl⟩
    · refine .inl ⟨hf, ?_⟩
      unfold bookkeep
      split <;> simp_all
    · have hi : i.isHostOp = false := by
        by_contra hi
        exact hs (idle_of_exec_hostOp (by simpa using hi) he)
      exact .inr ⟨i, u, hf, hi, he, microFrame_exec hi he, rfl⟩

/-- No step places an instruction (log entry 18). -/
theorem step_placed {s t : State} (hp : s.inp.placed = none) (h : step s = .next t) :
    t.inp.placed = none := by
  rcases step_cases hp h with ⟨_, rfl⟩ | ⟨_, rfl⟩ | ⟨_, _, _, rfl⟩ | ⟨_, rfl⟩ |
    ⟨_, _, _, ⟨_, ⟨_, rfl⟩ | ⟨_, rfl⟩⟩ | ⟨i, u, _, _, _, hm, rfl⟩⟩
  · exact hp
  · split <;> exact hp
  · exact hp
  · exact hp
  · exact hp
  · rw [(sequenceFrame_leave s.st s).fields]
    exact hp
  · rw [(sequenceFrame_sequence s u).fields, hm.fields]
    exact hp

end Sys2Proof.Machine
end

