-- ==== Sys2Proof/Laws/Lists.lean ====
section
/-! SUPPORT. The micro-operation lists of the states (`10_state.md` R24), and one step down such a list; one
step of each state of the Calibration Reader. -/

namespace Sys2Proof.Machine

/-! ### The list of a state -/

/-- The whole micro-operation list of a state that has one fixed at its entry; Idle, SetupCheck and OtpSkip
have none. -/
def stateList (s : State) : List Instr :=
  match s.st with
  | .idle | .setupCheck | .otpSkip => []
  | .otpCmd => unitOps s .otpRead
  | .otpDummy | .otpProbe | .otpData0 | .otpData1 => [.rd]
  | .setupFin => [.detach .cal, .attach .wr]
  | .hwReset => hwResetOps s.cfg.tRst
  | .waitBusy1 | .waitBusy2 | .waitBusy3 | .waitBusy4 | .waitBusy5 => [.bwait]
  | .configuring => configuringOps s
  | .transmittingFrame1 => frame1Ops s
  | .transmittingFrame2 => frame2Ops s
  | .powerOn => twice s.cfg.addrs.pon
  | .refresh => twice s.cfg.addrs.drf
  | .powerOff => twice s.cfg.addrs.pof

/-- Has the state a list that is fixed at its entry? -/
def hasStateList (q : St) : Bool := decide (q ∉ [St.idle, .setupCheck, .otpSkip])

/-- What such a state has still to run is its list from position SUB on (R24). -/
theorem remaining_eq_drop {s : State} (h : hasStateList s.st = true) :
    remaining s = (stateList s).drop s.sub.toNat := by
  unfold remaining stateList
  cases hq : s.st <;> rw [hq] at h
  all_goals exact absurd h (by decide)

/-- No micro-operation and no position changes the list. -/
theorem stateList_microFrame {s u : State} (h : MicroFrame s u) (n : Half) :
    stateList { u with sub := n } = stateList s := by
  rw [h.fields]
  unfold stateList
  cases s.st <;> rfl

/-- A state list is at most the hook and eleven micro-operations more (R205 to R207). -/
theorem stateList_length_le (s : State) : (stateList s).length ≤ s.cfg.preConfigHook.length + 11 := by
  have hu : ∀ i, (unitOps s i).length ≤ 3 := by
    intro i
    cases i <;> simp [unitOps, wr1, wr2, wrf, commandOps]
  have h1 : (configuringOps s).length ≤ s.cfg.preConfigHook.length + 11 := by
    unfold configuringOps
    split <;> simp [unitOps, wr1, wr2]
  have h2 : (frame1Ops s).length ≤ 6 := by
    unfold frame1Ops
    split <;> simp [unitOps, wr1, wrf]
  have h3 : (frame2Ops s).length ≤ 6 := by
    unfold frame2Ops
    split <;> simp [unitOps, wr1, wrf]
  have h4 := hu .otpRead
  unfold stateList
  cases s.st <;> simp only [hwResetOps, twice, List.length_cons, List.length_nil] <;> omega

/-! ### One step down the list of a cycle state -/

/-- A cycle state goes down its list. -/
theorem sequence_of_inCycle {s : State} (hc : s.st.inCycle = true) (u : State) :
    sequence s u = advance s u := by
  unfold Machine.sequence
  cases h : s.st <;> rw [h] at hc <;> first | rfl | cases hc

/-- The step of a cycle state that has `i` to run, and `rest` after it. -/
theorem step_of_remaining {s u : State} {i : Instr} {rest : List Instr} (hc : s.st.inCycle = true)
    (hv : s.inp.hostcmdValid = false) (hn : s.inp.placed = none) (hp : s.cfg.paramsOk = true)
    (hr : remaining s = i :: rest) (he : exec i s = .next u) : step s = .next (if rest = [] then leave s.st u else nextSub u) := by
  rw [step_of_fetch hn (stepRefusal_eq_none.2 (.inr ⟨hv, hp⟩)) (by rw [fetch, hr]; rfl) he,
    sequence_of_inCycle hc]
  unfold advance
  rw [hr]
  cases rest <;> rfl

/-- A hookable micro-operation has a next state wherever a device is attached. -/
theorem exec_hookable {s : State} (h : s.attached ≠ .none) {m : MicroOp} (hm : m.hookable = true) :
    ∃ u, exec m.instr s = .next u := by
  have key : ∀ {l o}, Sends l s o → ∃ u, o = .next u := fun ⟨u, _, h, _⟩ => ⟨u, h⟩
  cases m <;> first | exact (Bool.false_ne_true hm).elim | exact ⟨_, rfl⟩ | skip
  case cmd => exact key (sends_sendCommand _ h)
  case dat b => exact key (sends_sendData (bytes := [b]) (by simp) h)
  case bulk => exact key (sends_sendFrame _ h)
  case rd => exact ⟨_, requireDevice_of_attached h⟩

/-! ### One step of the Calibration Reader -/

theorem stepRefusal_of_readerAt {q : St} {s : State} (h : ReaderAt q s) : stepRefusal s = none :=
  stepRefusal_eq_none.2 (.inr ⟨h.quiet, h.params⟩)

theorem attached_of_readerAt {q : St} {s : State} (h : ReaderAt q s) : s.attached ≠ .none := by
  rw [h.device]
  decide

/-- A reading state makes its read and acts on the answer (R160 to R165). -/
theorem step_of_readerAt_rd {q : St} {s : State} (h : ReaderAt q s)
    (hq : q ∈ [St.otpDummy, .otpProbe, .otpData0, .otpData1] ∨ (q = .otpSkip ∧ s.otpSkip ≠ 0)) :
    step s = .next (sequence s (readTransaction s)) := by
  refine step_of_fetch h.unplaced (stepRefusal_of_readerAt h) (i := .rd) ?_
    (requireDevice_of_attached (attached_of_readerAt h))
  unfold fetch remaining
  rw [h.st, h.sub]
  rcases hq with hq | ⟨rfl, hs⟩
  · simp only [List.mem_cons, List.not_mem_nil, or_false] at hq
    rcases hq with rfl | rfl | rfl | rfl <;> rfl
  · dsimp only
    cases hn : s.otpSkip.toNat with
    | zero => exact absurd (BitVec.toNat_inj.1 hn) hs
    | succ n => rfl

/-- OtpCmd sends its command byte and acts on the status (R159). -/
theorem step_of_readerAt_otpCmd {s : State} (h : ReaderAt .otpCmd s) :
    step s = .next (sequence s
      (sendTransaction .command (fun dc st => .cmd dc s.cfg.addrs.otpRead st) s)) := by
  refine step_of_fetch h.unplaced (stepRefusal_of_readerAt h) (i := .cmd s.cfg.addrs.otpRead) ?_
    (requireDevice_of_attached (attached_of_readerAt h))
  unfold fetch remaining
  rw [h.st, h.sub]
  rfl

/-- The last discard read leaves OtpSkip (R162). -/
theorem skipOne_of_zero {s : State} (h : s.otpSkip - 1 = 0) :
    skipOne s = goto .otpData0 { s with otpSkip := s.otpSkip - 1 } := if_pos h

/-- Every earlier discard read stays (R162). -/
theorem skipOne_of_ne {s : State} (h : s.otpSkip - 1 ≠ 0) :
    skipOne s = { s with otpSkip := s.otpSkip - 1 } := if_neg h

/-- A plausible pair is committed (R166). -/
theorem commit_of_plausible {s : State} {d : Byte} (h : s.cfg.plausible ⟨s.psrTmp0, d⟩ = true) :
    commit d s = goto .setupFin { s with psrBase := ⟨s.psrTmp0, d⟩ } := if_pos h

/-- An implausible pair is a CalibrationFailure (R166). -/
theorem commit_of_implausible {s : State} {d : Byte} (h : s.cfg.plausible ⟨s.psrTmp0, d⟩ = false) :
    commit d s = calibrationFails s := if_neg (by rw [h]; decide)

end Sys2Proof.Machine
end

