-- ==== Sys2Proof/Laws/PerInstr.lean ====
section
/-! SUPPORT. Per-instruction laws.  Family EncodingFormat: the format an instruction is encoded in is the
format of its layer (`30_encoding.md` R90, R94, R100). -/

namespace Sys2Proof.Laws.EncodingFormat

/-- A host operation is a host code, a micro-operation or ERR a record, a panel command its address byte, in
each case only it. -/
def Statement (i : Instr) : Prop :=
  ∀ ad : CmdAddrs,
    (i.isHostOp = true ↔ ∃ b, encode ad i = .host b) ∧
    ((i.isMicroOp || i.isErrEvent) = true ↔ ∃ r, encode ad i = .record r) ∧
    (i.isPanelCommand = true ↔ ∃ a, encode ad i = .panel a ∧ ad.addressOf i = some a)

/-- An instruction encoded as a host code. -/
theorem of_host {i : Instr} {b : Byte} (h : ∀ ad, encode ad i = .host b)
    (hi : (i.isHostOp, i.isMicroOp || i.isErrEvent, i.isPanelCommand) = (true, false, false)) :
    Statement i := by
  intro ad
  simp only [Prod.mk.injEq] at hi
  simp [h ad, hi.1, hi.2.1, hi.2.2]

/-- An instruction encoded as a record. -/
theorem of_record {i : Instr} {r : BitVec 20} (h : ∀ ad, encode ad i = .record r)
    (hi : (i.isHostOp, i.isMicroOp || i.isErrEvent, i.isPanelCommand) = (false, true, false)) :
    Statement i := by
  intro ad
  simp only [Prod.mk.injEq] at hi
  simp [h ad, hi.1, hi.2.1, hi.2.2]

/-- An instruction encoded as a panel address byte. -/
theorem of_panel {i : Instr} {f : CmdAddrs → Byte}
    (h : ∀ ad, encode ad i = .panel (f ad) ∧ ad.addressOf i = some (f ad))
    (hi : (i.isHostOp, i.isMicroOp || i.isErrEvent, i.isPanelCommand) = (false, false, true)) :
    Statement i := by
  intro ad
  simp only [Prod.mk.injEq] at hi
  simp [h ad, hi.1, hi.2.1, hi.2.2]

theorem setup : Statement .setup := of_host (fun _ => rfl) rfl
theorem update : Statement .update := of_host (fun _ => rfl) rfl
theorem forceFull : Statement .forceFull := of_host (fun _ => rfl) rfl
theorem cmd (a : Byte) : Statement (.cmd a) := of_record (fun _ => rfl) rfl
theorem dat (b : Byte) : Statement (.dat b) := of_record (fun _ => rfl) rfl
theorem bulk (src : FrameSrc) : Statement (.bulk src) := of_record (fun _ => rfl) rfl
theorem rd : Statement .rd := of_record (fun _ => rfl) rfl
theorem bwait : Statement .bwait := of_record (fun _ => rfl) rfl
theorem delay (t : Half) : Statement (.delay t) := of_record (fun _ => rfl) rfl
theorem rstset (l : Level) : Statement (.rstset l) := of_record (fun _ => rfl) rfl
theorem attach (d : Device) : Statement (.attach d) := of_record (fun _ => rfl) rfl
theorem detach (d : Device) : Statement (.detach d) := of_record (fun _ => rfl) rfl
theorem err (k : ErrKind) : Statement (.err k) := of_record (fun _ => rfl) rfl
theorem tset : Statement .tset := of_panel (fun _ => ⟨rfl, rfl⟩) rfl
theorem tsetEn : Statement .tsetEn := of_panel (fun _ => ⟨rfl, rfl⟩) rfl
theorem psr : Statement .psr := of_panel (fun _ => ⟨rfl, rfl⟩) rfl
theorem border : Statement .border := of_panel (fun _ => ⟨rfl, rfl⟩) rfl
theorem vcom : Statement .vcom := of_panel (fun _ => ⟨rfl, rfl⟩) rfl
theorem dtm1 : Statement .dtm1 := of_panel (fun _ => ⟨rfl, rfl⟩) rfl
theorem dtm2 : Statement .dtm2 := of_panel (fun _ => ⟨rfl, rfl⟩) rfl
theorem pon : Statement .pon := of_panel (fun _ => ⟨rfl, rfl⟩) rfl
theorem drf : Statement .drf := of_panel (fun _ => ⟨rfl, rfl⟩) rfl
theorem pof : Statement .pof := of_panel (fun _ => ⟨rfl, rfl⟩) rfl
theorem otpRead : Statement .otpRead := of_panel (fun _ => ⟨rfl, rfl⟩) rfl

end Sys2Proof.Laws.EncodingFormat
end

