-- ==== Sys2Proof/Laws/Rotator.lean ====
section
/-! SUPPORT. What packing a byte from bits gives, and the facts GEOMETRY_OK stands for. -/

namespace Sys2Proof.Machine

/-- Bit `b` of a packed byte is the bit it was packed from (R10). -/
theorem packByte_getLsbD (f : Nat → Bool) {b : Nat} (hb : b < 8) : (packByte f).getLsbD b = f b := by
  have h8 : ∀ a0 a1 a2 a3 a4 a5 a6 a7 : Bool,
      (packByte fun
        | 0 => a0
        | 1 => a1
        | 2 => a2
        | 3 => a3
        | 4 => a4
        | 5 => a5
        | 6 => a6
        | _ => a7) = BitVec.ofBoolListLE [a0, a1, a2, a3, a4, a5, a6, a7] := by decide
  have hf : packByte f = packByte fun
      | 0 => f 0
      | 1 => f 1
      | 2 => f 2
      | 3 => f 3
      | 4 => f 4
      | 5 => f 5
      | 6 => f 6
      | _ => f 7 := rfl
  have hl : ∀ a0 a1 a2 a3 a4 a5 a6 a7 : Bool, ∀ b < 8,
      (BitVec.ofBoolListLE [a0, a1, a2, a3, a4, a5, a6, a7]).getLsbD b =
        [a0, a1, a2, a3, a4, a5, a6, a7].getD b false := by decide
  rw [hf, h8, hl _ _ _ _ _ _ _ _ b hb]
  interval_cases b <;> rfl

/-- GEOMETRY_OK, conjunct by conjunct (R7). -/
theorem geometryOk_iff {c : Config} : c.geometryOk = true ↔
    c.logicalH = c.panelW ∧ c.logicalW = c.panelH ∧ c.panelW % 8 = 0 ∧ c.panelH % 8 = 0 ∧
      0 < c.panelW ∧ 0 < c.panelH := by
  simp [Config.geometryOk]

/-- One byte of the rotated frame (R132). -/
theorem readByte_rot (c : Config) (lf : Memory) (i : Nat) :
    readByte (rot c lf) i = if i < c.frameBytes then packByte (rotBit c lf i) else unlistedByte :=
  readByte_memoryOf _ _ _

end Sys2Proof.Machine
end

