-- ==== Sys2Proof/Tests/Slice0.lean ====
section
/-! SUPPORT. The model's own tests: well-formedness smoke, words written out from the encoding tables, one
step per instruction against the vectors of `95_test_vectors.md`, and a witness for the hypotheses of every
obligation. -/

namespace Sys2Proof.Tests

open Sys2Proof.Machine

/-! ### Small states -/

/-- Configuration K of `95_test_vectors.md` section 0, geometry T. -/
def kConfig : Config :=
  { Config.reference with
    panelW := 8, panelH := 16, logicalW := 16, logicalH := 8, otpBank0Start := 4, otpBank1Start := 9,
    psrDefault := ⟨0x0F, 0x89⟩ }

/-- `LA`, `LB`, `PA` and `PB` of section 0. -/
def frameLA : Memory := [(0, 0xFF), (1, 0x01), (4, 0x80), (15, 0x01)]

def frameLB : Memory := [(0, 0xFF), (1, 0x01), (4, 0x90), (15, 0x01)]

def framePA : Memory :=
  [(0, 0x05), (1, 0x01), (2, 0x01), (3, 0x01), (4, 0x01), (5, 0x01), (6, 0x01), (7, 0x01), (15, 0x81)]

def framePB : Memory :=
  [(0, 0x05), (1, 0x01), (2, 0x01), (3, 0x05), (4, 0x01), (5, 0x01), (6, 0x01), (7, 0x01), (15, 0x81)]

/-- The end state of program P1, with `LB` in LF and the trace forgotten. -/
def afterP1 : State :=
  { State.resetWith kConfig with
    functional := true, init := true, histValid := true, tcode := 0x19, psrBase := ⟨0xCF, 0x8D⟩,
    counter := 1, fue := 3, attached := .wr, pf := framePA, hf := framePA,
    inp := { Inputs.undriven with lf := frameLB, temp := 25, fullUpdateEvery := 3, busy := .ready } }

/-- `s` with these answers of the environment to come. -/
def answering (sts : List TxStatus) (bytes : List Byte) (s : State) : State :=
  { s with inp := { s.inp with statuses := sts, readBytes := bytes } }

/-- `s` with BUSY not ready and this outcome of the next wait to come. -/
def waiting (o : WaitOutcome) (s : State) : State :=
  { s with inp := { s.inp with busy := .notReady, waitOutcomes := [o] } }

/-- The setup of P6's step 5 in the state `q`, with these answers to come. -/
def reading (q : St) (skip : Half) (sts : List TxStatus) (bytes : List Byte) : State :=
  answering sts bytes
    { afterP1 with
      st := q, functional := false, init := false, histValid := false, counter := 0, otpSkip := skip,
      attached := .cal, psrTmp0 := 0xCF }

/-- A cycle after P1 in the state `q` at position `n`. -/
def cycling (q : St) (n : Half) (m : Mode) : State :=
  { afterP1 with st := q, sub := n, mode := m }

/-- The first cycle after P1's SETUP in the state `q` at position `n`. -/
def firstCycle (q : St) (n : Half) : State :=
  { afterP1 with st := q, sub := n, init := false, histValid := false, counter := 0 }

/-- Does `o` answer a next state with the property `p`? -/
def nextIs (o : Host.Outcome State Fault Refusal) (p : State → Bool) : Bool :=
  match o with
  | .next s => p s
  | .fault _ => false
  | .refused _ => false

/-! ### Well-formedness refuses what is ill-formed -/

theorem test_wf_vcom_shares_borders_address :
    Instr.wf defaultAddrs .vcom = false ∧ Instr.wf defaultAddrs .border = true := by decide

theorem test_hook_refuses :
    MicroOp.hookable (.rstset .low) = false ∧ MicroOp.hookable (.attach .cal) = false ∧
    MicroOp.hookable (.detach .wr) = false := by decide

theorem test_config_wf_refuses_equal_clocks :
    Config.wf { kConfig with calHz := 2, wrHz := 2 } = false ∧
    Config.wf { kConfig with preConfigHook := [.detach .wr] } = false ∧ kConfig.wf = true := by decide

/-- R8: the values that are neither OPEN nor REF. -/
theorem test_spec_constants :
    kConfig.HasSpecConstants ∧ ¬ ({ kConfig with fastFlag := 0x20 } : Config).HasSpecConstants :=
  ⟨⟨rfl, rfl, rfl, rfl, rfl, rfl, rfl⟩, fun h => absurd h.fastFlag (by decide)⟩

theorem test_hookWf_refuses_an_entry :
    Config.hookWf { kConfig with preConfigHook := [.bwait, .attach .cal] } = false := by decide

theorem test_hookWf_refuses_a_long_hook :
    ∀ l, l.length = 32768 → Config.hookWf { kConfig with preConfigHook := l } = false := by
  intro l h
  simp [Config.hookWf, h]

theorem test_geometry_refuses_each_conjunct :
    Config.geometryOk { kConfig with logicalH := 16 } = false ∧
    Config.geometryOk { kConfig with logicalW := 8 } = false ∧
    Config.geometryOk { kConfig with panelW := 9, logicalH := 9 } = false ∧
    Config.geometryOk { kConfig with panelH := 15, logicalW := 15 } = false ∧
    Config.geometryOk { kConfig with panelW := 0, logicalH := 0 } = false ∧
    Config.geometryOk { kConfig with panelH := 0, logicalW := 0 } = false := by decide

theorem test_configOk_refuses_each_conjunct :
    kConfig.configOk 0 = false ∧
    Config.configOk { kConfig with logicalH := 16 } 120 = false ∧
    Config.configOk { kConfig with otpBank0Start := 0 } 120 = false ∧
    Config.configOk { kConfig with otpBank1Start := 0 } 120 = false ∧
    Config.configOk { kConfig with otpBank0Start := 65536 } 120 = false ∧
    Config.configOk { kConfig with otpBank1Start := 65536 } 120 = false ∧
    Config.configOk { kConfig with bvv := .other } 120 = false ∧
    Config.configOk { kConfig with pinsPresent := false } 120 = false ∧
    kConfig.configOk 1 = true := by decide

/-! ### Words written out from the encodings of R90, R94 and R100 -/

theorem test_decode_host_words :
    decode defaultAddrs (.host 0b00000001) = .ok .setup ∧
    decode defaultAddrs (.host 0b00000010) = .ok .update ∧
    decode defaultAddrs (.host 0b00000011) = .ok .forceFull ∧
    decode defaultAddrs (.host 0b00000000) = .error (.reservedHostCode 0x00) ∧
    decode defaultAddrs (.host 0b00000100) = .error (.reservedHostCode 0x04) :=
  ⟨rfl, rfl, rfl, rfl, rfl⟩

theorem test_decode_bus_records :
    decode defaultAddrs (.record 0b00000000000010100010) = .ok (.cmd 0xA2) ∧
    decode defaultAddrs (.record 0b00010000000001011001) = .ok (.dat 0x59) ∧
    decode defaultAddrs (.record 0b00100000000000000000) = .ok (.bulk .pf) ∧
    decode defaultAddrs (.record 0b00100000000000000001) = .ok (.bulk .hf) ∧
    decode defaultAddrs (.record 0b00100000000000000010) = .ok (.bulk .zf) ∧
    decode defaultAddrs (.record 0b00110000000000000000) = .ok .rd :=
  ⟨rfl, rfl, rfl, rfl, rfl, rfl⟩

theorem test_decode_other_records :
    decode defaultAddrs (.record 0b01000000000000000000) = .ok .bwait ∧
    decode defaultAddrs (.record 0b01011000000000000001) = .ok (.delay 32769) ∧
    decode defaultAddrs (.record 0b01100000000000000000) = .ok (.rstset .low) ∧
    decode defaultAddrs (.record 0b01100000000000000001) = .ok (.rstset .high) ∧
    decode defaultAddrs (.record 0b01110000000000000000) = .ok (.attach .cal) ∧
    decode defaultAddrs (.record 0b01110000000000000001) = .ok (.attach .wr) ∧
    decode defaultAddrs (.record 0b10000000000000000000) = .ok (.detach .cal) ∧
    decode defaultAddrs (.record 0b10000000000000000001) = .ok (.detach .wr) :=
  ⟨rfl, rfl, rfl, rfl, rfl, rfl, rfl, rfl⟩

theorem test_decode_err_records :
    decode defaultAddrs (.record 0b10010000000000000000) = .ok (.err .bus) ∧
    decode defaultAddrs (.record 0b10010000000000000001) = .ok (.err .busyTimeout) ∧
    decode defaultAddrs (.record 0b10010000000000000010) = .ok (.err .calibration) ∧
    decode defaultAddrs (.record 0b10010000000000000011) = .ok (.err .configuration) :=
  ⟨rfl, rfl, rfl, rfl⟩

theorem test_decode_reserved_records :
    decode defaultAddrs (.record 0b00100000000000000011) = .error .reservedFrameSource ∧
    decode defaultAddrs (.record 0b10100000000000000000) = .error (.unknownKind 10) ∧
    decode defaultAddrs (.record 0b00000000000100000000) = .error (.reservedArgument 0x00100) :=
  ⟨rfl, rfl, rfl⟩

/-- The default address bytes of R100, G1. -/
theorem test_decode_panel_bytes :
    decode defaultAddrs (.panel 0b11100101) = .ok .tset ∧
    decode defaultAddrs (.panel 0b11100000) = .ok .tsetEn ∧
    decode defaultAddrs (.panel 0b00000000) = .ok .psr ∧
    decode defaultAddrs (.panel 0b01010000) = .ok .border ∧
    decode defaultAddrs (.panel 0b00010000) = .ok .dtm1 ∧
    decode defaultAddrs (.panel 0b00010011) = .ok .dtm2 ∧
    decode defaultAddrs (.panel 0b00000100) = .ok .pon ∧
    decode defaultAddrs (.panel 0b00010010) = .ok .drf ∧
    decode defaultAddrs (.panel 0b00000010) = .ok .pof ∧
    decode defaultAddrs (.panel 0b10100010) = .ok .otpRead :=
  ⟨rfl, rfl, rfl, rfl, rfl, rfl, rfl, rfl, rfl, rfl⟩

/-- R96, R112: VCOM is told from BORDER by its payload, and by its byte where the two differ. -/
theorem test_decode_vcom :
    decodeUnit kConfig 16 0b01010000 [0b00000111] = .ok .vcom ∧
    decodeUnit kConfig 16 0b01010000 [0b00100111] = .ok .border ∧
    decode { defaultAddrs with vcom := 0b10000010 } (.panel 0b10000010) = .ok .vcom :=
  ⟨rfl, rfl, rfl⟩

theorem test_decodeTableWord :
    decodeTableWord 8 0x01 = some .setup ∧ decodeTableWord 24 0x50032 = some (.delay 50) ∧
    decodeTableWord 8 0xE5 = some .tset ∧ decodeTableWord 24 0x20003 = none ∧
    decodeTableWord 8 0xFF = none := ⟨rfl, rfl, rfl, rfl, rfl⟩

theorem test_encode :
    encode defaultAddrs (.err .calibration) = .record 0x90002 ∧
    encode defaultAddrs (.detach .wr) = .record 0x80001 ∧
    encode defaultAddrs .drf = .panel 0x12 := by decide

/-! ### One step each, against the vectors -/

/-- V-H6, and P6 step 5: SETUP with FULL_UPDATE_EVERY = 0, and with 2. -/
theorem test_setup :
    nextIs (exec .setup (setFullUpdateEvery 0 afterP1)) (fun t =>
      decide (t = { setFullUpdateEvery 0 afterP1 with
        status := 0b1000, functional := false, trace := [.err .configuration] })) = true ∧
    nextIs (exec .setup (setFullUpdateEvery 2 afterP1)) (fun t =>
      decide (t.st = .setupCheck ∧ t.fue = 2 ∧ t.counter = 0 ∧ t.init = false ∧ t.histValid = false ∧
        t.hf = framePA ∧ t.trace = [])) = true := by decide

/-- P2 step 2, acceptance. -/
theorem test_update :
    nextIs (exec .update afterP1) (fun t =>
      decide (t = { afterP1 with st := .waitBusy1, pf := framePB, mode := .fast, tcode := 0x59 })) = true := by
  decide

/-- V-H1: UPDATE of a block that is not functional. -/
theorem test_update_not_functional :
    nextIs (exec .update (State.resetWith kConfig))
      (fun t => decide (t = State.resetWith kConfig)) = true := by decide

/-- V-H4. -/
theorem test_forceFull :
    nextIs (exec .forceFull { afterP1 with counter := 57, fue := 120 })
      (fun t => decide (t = { afterP1 with counter := 0, fue := 120 })) = true := by decide

/-- P1 step 2, `CMD A2`. -/
theorem test_cmd :
    nextIs (exec (.cmd 0xA2) (answering [.ok, .err] [] afterP1)) (fun t =>
      decide (t = { answering [.err] [] afterP1 with
        inp := (answering [.err] [] { afterP1 with inp := { afterP1.inp with draws := 1 } }).inp,
        trace := [.cmd .command 0xA2 .ok] })) = true := by decide

/-- P4 step 3, `DAT 89!err; ERR Bus`. -/
theorem test_dat :
    nextIs (exec (.dat 0x89) (answering [.err] [] afterP1)) (fun t =>
      decide (t.status = 0b0001 ∧ t.dc = .data ∧ t.trace = [.dat .data 0x89 .err, .err .bus])) = true := by
  decide

/-- P1 step 4, `BULK [PA]`. -/
theorem test_bulk_pf :
    nextIs (exec (.bulk .pf) (answering [.ok] [] afterP1)) (fun t =>
      decide (t.trace = [.bulk .data
        [0x05, 0x01, 0x01, 0x01, 0x01, 0x01, 0x01, 0x01, 0, 0, 0, 0, 0, 0, 0, 0x81] .ok])) = true := by
  decide

theorem test_bulk_zf :
    nextIs (exec (.bulk .zf) (answering [.ok] [] afterP1)) (fun t =>
      decide (t.trace = [.bulk .data (List.replicate 16 0) .ok])) = true := by decide

/-- P1 step 2, `RD -> A5`. -/
theorem test_rd :
    nextIs (exec .rd (answering [.ok] [0xA5, 0x00] afterP1)) (fun t =>
      decide (t.inp.readBytes = [0x00] ∧ t.status = 0 ∧ t.trace = [.rd .data 0x00 0xA5 .ok])) = true := by
  decide

/-- P4 step 3, `BWAIT -> timeout; ERR BusyTimeout`. -/
theorem test_bwait_timeout :
    nextIs (exec .bwait (waiting .timeout afterP1)) (fun t =>
      decide (t.status = 0b0010 ∧ t.trace = [.bwait .timeout, .err .busyTimeout])) = true := by decide

theorem test_bwait_ready :
    nextIs (exec .bwait afterP1)
      (fun t => decide (t = { afterP1 with trace := [.bwait .readySeen] })) = true := by decide

theorem test_delay :
    nextIs (exec (.delay 50) afterP1)
      (fun t => decide (t = { afterP1 with trace := [.delay 50] })) = true := by decide

theorem test_rstset :
    nextIs (exec (.rstset .low) afterP1)
      (fun t => decide (t = { afterP1 with rst := .low, trace := [.rstset .low] })) = true := by decide

theorem test_attach :
    nextIs (exec (.attach .cal) { afterP1 with attached := .none })
      (fun t => decide (t = { afterP1 with attached := .cal, trace := [.attach .cal] })) = true := by decide

theorem test_detach :
    nextIs (exec (.detach .wr) afterP1)
      (fun t => decide (t = { afterP1 with attached := .none, trace := [.detach .wr] })) = true := by decide

theorem test_err :
    nextIs (exec (.err .calibration) { afterP1 with status := 0b0001 })
      (fun t => decide (t.status = 0b0101 ∧ t.trace = [.err .calibration])) = true := by decide

/-- P2 step 2: the units of Configuring, TCODE = 0x59 and PSR_BASE = (CF, 8D). -/
theorem test_tset :
    nextIs (exec .tset (answering [.ok, .ok] [] { afterP1 with tcode := 0x59 }))
      (fun t => decide (t.trace = [.cmd .command 0xE5 .ok, .dat .data 0x59 .ok])) = true := by decide

theorem test_tsetEn :
    nextIs (exec .tsetEn (answering [.ok, .ok] [] afterP1))
      (fun t => decide (t.trace = [.cmd .command 0xE0 .ok, .dat .data 0x02 .ok])) = true := by decide

theorem test_psr_fast :
    nextIs (exec .psr (answering [.ok, .ok, .ok] [] { afterP1 with mode := .fast }))
      (fun t => decide (t.psrBase = ⟨0xCF, 0x8D⟩ ∧
        t.trace = [.cmd .command 0x00 .ok, .dat .data 0xDF .ok, .dat .data 0x8F .ok])) = true := by decide

/-- P4 step 3: the second PSR byte fails, the unit goes on. -/
theorem test_psr_full :
    nextIs (exec .psr (answering [.ok, .err, .ok] [] afterP1))
      (fun t => decide (t.status = 0b0001 ∧
        t.trace = [.cmd .command 0x00 .ok, .dat .data 0xCF .err, .err .bus, .dat .data 0x8D .ok])) = true := by
  decide

theorem test_border :
    nextIs (exec .border (answering [.ok, .ok] [] afterP1))
      (fun t => decide (t.trace = [.cmd .command 0x50 .ok, .dat .data 0x27 .ok])) = true := by decide

theorem test_vcom :
    nextIs (exec .vcom (answering [.ok, .ok] [] afterP1))
      (fun t => decide (t.trace = [.cmd .command 0x50 .ok, .dat .data 0x07 .ok])) = true := by decide

theorem test_dtm1 :
    nextIs (exec .dtm1 (answering [.ok, .ok] [] { afterP1 with pf := framePB }))
      (fun t => decide (t.trace = [.cmd .command 0x10 .ok, .bulk .data
        [0x05, 0x01, 0x01, 0x05, 0x01, 0x01, 0x01, 0x01, 0, 0, 0, 0, 0, 0, 0, 0x81] .ok])) = true := by
  decide

/-- V-F3: a Fast cycle sends the frame recorded before. -/
theorem test_dtm2_fast :
    nextIs (exec .dtm2 (answering [.ok, .ok] [] { afterP1 with pf := framePB, mode := .fast }))
      (fun t => decide (t.trace = [.cmd .command 0x13 .ok, .bulk .data
        [0x05, 0x01, 0x01, 0x01, 0x01, 0x01, 0x01, 0x01, 0, 0, 0, 0, 0, 0, 0, 0x81] .ok])) = true := by
  decide

/-- V-F4: a Full cycle sends zeros. -/
theorem test_dtm2_full :
    nextIs (exec .dtm2 (answering [.ok, .ok] [] afterP1))
      (fun t => decide (t.trace = [.cmd .command 0x13 .ok, .bulk .data (List.replicate 16 0) .ok])) =
        true := by decide

/-- R96, R107: one command byte; the state PowerOn sends it a second time. -/
theorem test_pon :
    nextIs (exec .pon (answering [.err, .ok] [] afterP1))
      (fun t => decide (t.inp.statuses = [.ok] ∧ t.trace = [.cmd .command 0x04 .err, .err .bus])) = true ∧
    nextIs (step (answering [.ok] [] (cycling .powerOn 1 .fast)))
      (fun t => decide (t.st = .waitBusy3 ∧ t.trace = [.cmd .command 0x04 .ok])) = true := by
  decide

theorem test_drf :
    nextIs (exec .drf (answering [.ok] [] afterP1))
      (fun t => decide (t.trace = [.cmd .command 0x12 .ok])) = true := by decide

theorem test_pof :
    nextIs (exec .pof (answering [.ok] [] afterP1))
      (fun t => decide (t.trace = [.cmd .command 0x02 .ok])) = true := by decide

theorem test_otpRead :
    nextIs (exec .otpRead (answering [.ok] [] { afterP1 with attached := .cal }))
      (fun t => decide (t.trace = [.cmd .command 0xA2 .ok])) = true := by decide

/-! ### Pure functions and the outside, against the vectors -/

/-- V-X20, V-X21. -/
theorem test_rot : rot kConfig frameLA = framePA ∧ rot kConfig frameLB = framePB := by decide

/-- V-M3, V-M4, V-M8, V-M11. -/
theorem test_modeSel :
    modeSel 119 120 = .fast ∧ modeSel 120 120 = .full ∧ modeSel 57 1 = .full ∧
    modeSel 4294967295 4294967295 = .full := by decide

/-- V-T1, V-T4, V-T9, V-T16. -/
theorem test_tempCode :
    tempCode kConfig 25 .full = 0x19 ∧ tempCode kConfig 25 .fast = 0x59 ∧
    tempCode kConfig (-5) .fast = 0xFB ∧ tempCode kConfig (-65) .full = 0xBF ∧
    tempCode kConfig (-65) .fast = 0xFF ∧ tempCode kConfig (-32768) .fast = 0x40 := by decide

/-- P2 step 1: `set pixel (3,2)` turns LA into LB, and `clear pixel` turns it back. -/
theorem test_pixels :
    nextIs (setPixel 3 2 { afterP1 with inp := { afterP1.inp with lf := frameLA } })
      (fun t => decide (t.inp.lf = frameLB)) = true ∧
    nextIs (clearPixel 3 2 afterP1) (fun t => decide (t.inp.lf = frameLA)) = true := by decide

/-- R111: `LF := all 0x00`. -/
theorem test_clearLf : (clearLf afterP1).inp.lf = [] := by decide

/-- A word of layer 3, placed on the block at rest, runs as the next step. -/
theorem test_withFetchWord :
    nextIs (step ((answering [.ok] [] afterP1).withFetchWord 8 0x12)) (fun t => decide (t.st = .idle ∧
      t.inp.placed = none ∧ t.trace = [.cmd .command 0x12 .ok])) = true := by decide

/-- R92: a reserved code; R93: a code while READY is 0. -/
theorem test_step_host_codes :
    nextIs (step (present 0x7F afterP1)) (fun t => decide (t.st = .idle ∧ t.trace = [])) = true ∧
    step (present 0x02 (cycling .configuring 0 .fast)) = .refused .hostOperationInFlight := ⟨by decide, rfl⟩

/-- V-C10: the eleventh micro-operation of Configuring, Fast, variant a. -/
theorem test_step_configuring :
    nextIs (step (answering [.ok] [] (cycling .configuring 10 .fast))) (fun t =>
      decide (t.st = .transmittingFrame1 ∧ t.sub = 0 ∧ t.trace = [.dat .data 0x07 .ok])) = true := by
  decide

/-! ### Witnesses: every hypothesis of every obligation is met, each clause at its boundary -/

theorem inv_afterP1 : Machine.Inv afterP1 := by constructor <;> first | decide | exact trivial

theorem readerAt_reading (q : St) (skip : Half) (sts : List TxStatus) (bytes : List Byte) :
    ReaderAt q (reading q skip sts bytes) := ⟨rfl, rfl, rfl, (by decide : kConfig.paramsOk = true), rfl, rfl⟩

theorem witness_CmdSendsOneCommandByte :
    (answering [.ok] [] afterP1).attached ≠ .none ∧ nextStatus (answering [.ok] [] afterP1) = .ok ∧
    nextStatus (answering [.err] [] afterP1) = .err := by decide

theorem witness_DatSendsOneDataByte :
    (answering [.ok] [] (reading .otpCmd 0 [] [])).attached ≠ .none ∧
    nextStatus (answering [.ok] [] (reading .otpCmd 0 [] [])) = .ok ∧
    nextStatus (answering [.err] [] (reading .otpCmd 0 [] [])) = .err := by decide

theorem witness_SendDataSendsEveryByte :
    (answering [.err, .ok] [] afterP1).attached ≠ .none ∧ ([0xDF, 0x8F] : List Byte) ≠ [] ∧
    (answering [.err, .ok] [] afterP1).inp.statuses = [.err, .ok] ++ [] ∧
    [TxStatus.err, .ok].length = ([0xDF, 0x8F] : List Byte).length := by decide

theorem witness_BulkSendsTheWholeFrame :
    (answering [.ok] [] afterP1).attached ≠ .none ∧ nextStatus (answering [.ok] [] afterP1) = .ok ∧
    nextStatus (answering [.err] [] afterP1) = .err ∧
    0 < afterP1.cfg.frameBytes ∧ 15 < afterP1.cfg.frameBytes := by decide

theorem witness_RdReadsOneByte : (answering [.err] [0xA5] afterP1).attached ≠ .none := by decide

theorem witness_BwaitEndsUnderEitherOutcome :
    afterP1.inp.busy = .ready ∧
    (waiting .readySeen afterP1).inp.busy = .notReady ∧ nextOutcome (waiting .readySeen afterP1) = .readySeen ∧
    (waiting .timeout afterP1).inp.busy = .notReady ∧ nextOutcome (waiting .timeout afterP1) = .timeout := by
  decide

theorem witness_AttachAndDetachKeepOneDevice :
    (State.resetWith kConfig).attached = .none ∧ (reading .setupFin 0 [] []).attached = .cal ∧
    afterP1.attached = .wr ∧ afterP1.attached ≠ .none ∧ afterP1.attached ≠ .cal ∧
    (reading .setupFin 0 [] []).attached ≠ .wr := by decide

theorem witness_BusOperationsNeedADevice :
    (State.resetWith kConfig).attached = .none ∧ (∃ a, Instr.cmd 0xFF = .cmd a) ∧
    (∃ b, Instr.dat 0 = .dat b) ∧ (∃ src, Instr.bulk .zf = .bulk src) ∧
    Instr.otpRead ∈ [Instr.tset, .tsetEn, .psr, .border, .vcom, .dtm1, .dtm2, .pon, .drf, .pof, .otpRead] :=
  ⟨rfl, ⟨_, rfl⟩, ⟨_, rfl⟩, ⟨_, rfl⟩, by decide⟩

theorem witness_ShortCommandsSendTheirPayload :
    afterP1.attached ≠ .none ∧ afterP1.cfg.HasSpecConstants ∧
    (reading .otpCmd 0 [] []).attached ≠ .none :=
  ⟨by decide, test_spec_constants.1, by decide⟩

theorem witness_PsrSendsTheSettingsOfTheMode :
    afterP1.attached ≠ .none ∧ afterP1.cfg.HasSpecConstants ∧ afterP1.mode = .full ∧
    (cycling .configuring 4 .fast).attached ≠ .none ∧ (cycling .configuring 4 .fast).mode = .fast :=
  ⟨by decide, test_spec_constants.1, rfl, by decide, rfl⟩

theorem witness_FrameCommandsSendTheirFrames :
    (cycling .transmittingFrame2 0 .fast).attached ≠ .none ∧
    ((cycling .transmittingFrame2 0 .fast).mode = .fast ∧
      (cycling .transmittingFrame2 0 .fast).histValid = true) ∧
    ¬ ((firstCycle .transmittingFrame2 0).mode = .fast ∧
      (firstCycle .transmittingFrame2 0).histValid = true) := by decide

theorem witness_PowerCommandsAreSentTwice :
    let s := cycling .powerOff 0 .fast
    s.attached ≠ .none ∧
    (Instr.pof, s.cfg.addrs.pof, St.powerOff, St.waitBusy5) ∈
      [(Instr.pon, s.cfg.addrs.pon, St.powerOn, St.waitBusy3),
       (.drf, s.cfg.addrs.drf, .refresh, .waitBusy4), (.pof, s.cfg.addrs.pof, .powerOff, .waitBusy5)] ∧
    s.st = .powerOff ∧ s.sub = 0 ∧ s.cfg.paramsOk = true ∧ s.inp.hostcmdValid = false ∧
    s.inp.placed = none := by decide

theorem witness_PanelCommandsAreTheirMicroOperations :
    ((0xDF, 0x8F) : Byte × Byte) = (match (cycling .configuring 0 .fast).mode with
      | .full => ((cycling .configuring 0 .fast).psrBase.byte0, (cycling .configuring 0 .fast).psrBase.byte1)
      | .fast =>
        ((cycling .configuring 0 .fast).psrBase.byte0 ||| (cycling .configuring 0 .fast).cfg.psr0Fast,
          (cycling .configuring 0 .fast).psrBase.byte1 ||| (cycling .configuring 0 .fast).cfg.psr1Fast)) ∧
    FrameSrc.hf = (if (cycling .configuring 0 .fast).mode = .fast ∧
      (cycling .configuring 0 .fast).histValid = true then .hf else .zf) := by decide

theorem witness_BusOperationsFrame :
    (∃ src, Instr.bulk .pf = .bulk src) ∧ (∃ t, exec (.bulk .pf) (answering [.err] [] afterP1) = .next t) ∧
    (∃ t, exec .dtm2 (answering [.ok, .err] [] afterP1) = .next t) :=
  ⟨⟨_, rfl⟩, ⟨_, rfl⟩, ⟨_, rfl⟩⟩

theorem witness_PinWaitAndErrFrame :
    (∃ t, exec .bwait (waiting .timeout afterP1) = .next t) ∧ (∃ t, exec (.delay 0xFFFF) afterP1 = .next t) ∧
    (∃ t, exec (.rstset .high) afterP1 = .next t) ∧ (∃ t, exec (.detach .wr) afterP1 = .next t) ∧
    (∃ t, exec (.attach .wr) (State.resetWith kConfig) = .next t) ∧
    (∃ t, exec (.err .configuration) afterP1 = .next t) ∧ ErrKind.bus ≠ .configuration :=
  ⟨⟨_, rfl⟩, ⟨_, rfl⟩, ⟨_, rfl⟩, ⟨_, rfl⟩, ⟨_, rfl⟩, ⟨_, rfl⟩, by decide⟩

theorem witness_HostOperationsFrame :
    (∃ t, exec .setup afterP1 = .next t) ∧ (∃ t, exec .update afterP1 = .next t) ∧
    (∃ t, exec .forceFull afterP1 = .next t) ∧ memoryWithin afterP1.cfg.frameBytes afterP1.pf = true ∧
    afterP1.cfg.frameBytes ≤ 16 := ⟨⟨_, rfl⟩, ⟨_, rfl⟩, ⟨_, rfl⟩, by decide, by decide⟩

theorem witness_SetupAcceptanceStep :
    afterP1.st = .idle ∧ (setFullUpdateEvery 1 afterP1).cfg.configOk 1 = true ∧
    (setFullUpdateEvery 0 afterP1).inp.fullUpdateEvery = 0 ∧ afterP1.cfg.configOk 0 = false := by decide

theorem witness_UpdateAcceptanceStep :
    (State.resetWith kConfig).st = .idle ∧ (State.resetWith kConfig).functional = false ∧
    afterP1.st = .idle ∧ afterP1.functional = true ∧ afterP1.cfg.configOk afterP1.fue = true := by decide

theorem witness_ForceFullZeroesTheCounter :
    afterP1.st = .idle ∧ afterP1.functional = true ∧ afterP1.cfg.configOk afterP1.fue = true ∧
    afterP1.init = true := by decide

theorem witness_RefusedRuns :
    (present 0xFF (cycling .configuring 0 .fast)).st ≠ .idle ∧
    (present 0xFF (cycling .configuring 0 .fast)).inp.placed = none ∧
    (present 0xFF (cycling .configuring 0 .fast)).inp.hostcmdValid = true ∧
    (cycling .configuring 0 .fast).inp.hostcmdValid = false ∧
    Config.paramsOk { kConfig with logicalH := 16 } = false ∧
    afterP1.st = .idle ∧ afterP1.functional = true ∧ afterP1.cfg.configOk 0 = false := by decide

/-- V-H3. -/
theorem witness_ReservedHostCodesAreIgnored :
    (present 0x00 afterP1).st = .idle ∧ (present 0x00 afterP1).inp.placed = none ∧
    (present 0x00 afterP1).inp.hostcmdValid = true ∧
    (present 0x00 afterP1).inp.hostcmd = 0x00 ∧ 0x04 ≤ (present 0x04 afterP1).inp.hostcmd.toNat ∧
    0x04 ≤ (present 0xFF afterP1).inp.hostcmd.toNat := by decide

theorem witness_ModeSelectionFollowsTheCadence :
    (1 : Word) ≠ 0 ∧ (4294967295 : Word) ≠ 0 ∧ (0 : Word).toNat % (120 : Word).toNat = 0 ∧
    (119 : Word).toNat % (120 : Word).toNat ≠ 0 := by decide

theorem witness_TemperatureCodes : kConfig.HasSpecConstants := test_spec_constants.1

theorem witness_RotatorMapsEveryLogicalPixel :
    kConfig.geometryOk = true ∧ 0 < kConfig.logicalW ∧ 0 < kConfig.logicalH ∧ 15 < kConfig.logicalW ∧
    7 < kConfig.logicalH := by decide

theorem witness_RotatorClosedForm :
    kConfig.geometryOk = true ∧ 0 < kConfig.frameBytes ∧ 15 < kConfig.frameBytes ∧ 0 < 8 ∧ 7 < 8 := by decide

theorem witness_RotatorIsABijection :
    kConfig.geometryOk = true ∧ rot kConfig frameLA = rot kConfig frameLA ∧ 15 < kConfig.logicalW ∧
    7 < kConfig.logicalH := by decide

theorem witness_EqualReadingMemoriesAreEqual :
    memoryWf frameLA = true ∧ memoryWf (writeByte frameLB 4 0x80) = true ∧
    ∀ a, readByte frameLA a = readByte (writeByte frameLB 4 0x80) a :=
  ⟨by decide, by decide, fun _ => rfl⟩

theorem witness_SetupCheckReleasesThenAttaches :
    (cycling .setupCheck 0 .full).st = .setupCheck ∧ (cycling .setupCheck 0 .full).sub = 0 ∧
    (cycling .setupCheck 0 .full).cfg.paramsOk = true ∧
    (cycling .setupCheck 0 .full).inp.hostcmdValid = false ∧
    (cycling .setupCheck 0 .full).inp.placed = none ∧
    (cycling .setupCheck 0 .full).attached = (match Device.wr with | .cal => .cal | .wr => .wr) ∧
    (reading .setupCheck 0 [] []).attached = (match Device.cal with | .cal => .cal | .wr => .wr) ∧
    ({ cycling .setupCheck 0 .full with attached := .none } : State).attached = .none := by decide

theorem witness_OtpCommandAndDummyRead :
    nextStatus (reading .otpCmd 0 [.ok] []) = .ok ∧ ReaderAt .otpCmd (reading .otpCmd 0 [.ok] []) ∧
    nextStatus (reading .otpDummy 0 [.ok] [0xFF]) = .ok ∧
    ReaderAt .otpDummy (reading .otpDummy 0 [.ok] [0xFF]) :=
  ⟨rfl, readerAt_reading _ _ _ _, rfl, readerAt_reading _ _ _ _⟩

theorem witness_OtpProbeSelectsTheBank :
    ReaderAt .otpProbe (reading .otpProbe 0 [.ok] [0xA5]) ∧
    (reading .otpProbe 0 [.ok] [0xA5]).cfg.HasSpecConstants ∧
    nextStatus (reading .otpProbe 0 [.ok] [0xA5]) = .ok ∧ nextByte (reading .otpProbe 0 [.ok] [0xA5]) = 0xA5 ∧
    nextByte (reading .otpProbe 0 [.ok] [0xA4]) ≠ 0xA5 ∧
    nextStatus (reading .otpProbe 0 [.err] [0xA5]) = .err :=
  ⟨readerAt_reading _ _ _ _, test_spec_constants.1, rfl, rfl, by decide, rfl⟩

theorem witness_OtpSkipDiscardsReads :
    ReaderAt .otpSkip (reading .otpSkip 1 [.ok] [0]) ∧ (reading .otpSkip 0 [] []).otpSkip = 0 ∧
    (reading .otpSkip 1 [.ok] [0]).otpSkip ≠ 0 ∧ (reading .otpSkip 65535 [.ok] [0]).otpSkip ≠ 0 ∧
    nextStatus (reading .otpSkip 1 [.ok] [0]) = .ok ∧ nextStatus (reading .otpSkip 1 [.err] [0]) = .err :=
  ⟨readerAt_reading _ _ _ _, rfl, by decide, by decide, rfl, rfl⟩

theorem witness_OtpDataBytesAreCommitted :
    ReaderAt .otpData0 (reading .otpData0 0 [.ok] [0xCF]) ∧
    ReaderAt .otpData1 (reading .otpData1 0 [.ok] [0x8D]) ∧
    nextStatus (reading .otpData1 0 [.ok] [0x8D]) = .ok ∧
    (⟨(reading .otpData1 0 [.ok] [0x8D]).psrTmp0, nextByte (reading .otpData1 0 [.ok] [0x8D])⟩ :
      PanelSettings) ∉ kConfig.psrImplausible ∧
    (⟨(reading .otpData1 0 [.ok] [0x8D]).psrTmp0, nextByte (reading .otpData1 0 [.ok] [0x8D])⟩ :
      PanelSettings) ∈ ({ kConfig with psrImplausible := [⟨0xCF, 0x8D⟩] } : Config).psrImplausible :=
  ⟨readerAt_reading _ _ _ _, readerAt_reading _ _ _ _, rfl, by decide, by decide⟩

theorem witness_ReaderFailsOnTheFirstError :
    ∀ q ∈ [St.otpCmd, .otpDummy, .otpProbe, .otpSkip, .otpData0, .otpData1],
      ReaderAt q (reading q 1 [.err] [0]) ∧ nextStatus (reading q 1 [.err] [0]) = .err ∧
      (q = .otpSkip → (reading q 1 [.err] [0]).otpSkip ≠ 0) :=
  fun q _ => ⟨readerAt_reading _ _ _ _, rfl, fun _ => by show (1 : Half) ≠ 0; decide⟩

theorem witness_SetupFinHandsOverToWr : ReaderAt .setupFin (reading .setupFin 0 [] []) :=
  readerAt_reading _ _ _ _

/-- P6 step 5, the whole of it: OTP content O0, the probe byte 0xA5, three discard reads. -/
theorem witness_SetupReadsThePanelSettings :
    let s := present 0x01 (answering (List.replicate 8 .ok) [0, 0xA5, 0, 0, 0, 0xCF, 0x8D] afterP1)
    Machine.Inv s ∧ Presented 0x01 s ∧ s.cfg.configOk s.inp.fullUpdateEvery = true ∧
    4 = (if (0xA5 : Byte) = s.cfg.otpSentinel then s.cfg.otpBank0Start else s.cfg.otpBank1Start) ∧
    ([0, 0, 0] : List Byte).length = 4 - 1 ∧
    s.inp.readBytes = 0 :: 0xA5 :: ([0, 0, 0] ++ 0xCF :: 0x8D :: []) ∧
    s.inp.statuses = List.replicate (4 + 4) .ok ++ [] ∧
    (⟨0xCF, 0x8D⟩ : PanelSettings) ∉ s.cfg.psrImplausible := by
  refine ⟨?_, ⟨rfl, rfl, rfl⟩, by decide, rfl, rfl, rfl, rfl, by decide⟩
  constructor <;> first | decide | exact trivial

theorem witness_HwResetSequence :
    (firstCycle .hwReset 0).st = .hwReset ∧ (firstCycle .hwReset 0).sub = 0 ∧
    (firstCycle .hwReset 0).cfg.paramsOk = true ∧ (firstCycle .hwReset 0).inp.hostcmdValid = false ∧
    (firstCycle .hwReset 0).inp.placed = none := by decide

theorem witness_CompletionRecordsAndCounts :
    (cycling .waitBusy5 1 .fast).st = .waitBusy5 ∧ (cycling .waitBusy5 1 .fast).sub = 1 ∧
    (cycling .waitBusy5 1 .fast).cfg.paramsOk = true ∧
    (cycling .waitBusy5 1 .fast).inp.hostcmdValid = false ∧
    (cycling .waitBusy5 1 .fast).inp.placed = none := by decide

theorem witness_StatesFollowTheFixedOrder :
    (∃ t, step (cycling .waitBusy1 0 .fast) = .next t) ∧ (cycling .waitBusy1 0 .fast).st.inCycle = true ∧
    (∃ t, step (present 0x02 afterP1) = .next t) ∧ (present 0x02 afterP1).st = .idle ∧
    (∃ t, step (reading .setupFin 0 [] []) = .next t) ∧ (reading .setupFin 0 [] []).st.inSetup = true ∧
    (cycling .waitBusy1 0 .fast).inp.placed = none ∧ (present 0x02 afterP1).inp.placed = none ∧
    (reading .setupFin 0 [] []).inp.placed = none :=
  ⟨⟨_, rfl⟩, rfl, ⟨_, rfl⟩, rfl, ⟨_, rfl⟩, rfl, rfl, rfl, rfl⟩

/-- P2 step 2: a Fast cycle with INIT = 1. -/
theorem witness_CycleEmitsItsTrace :
    Machine.Inv (present 0x02 afterP1) ∧ Presented 0x02 (present 0x02 afterP1) ∧
    (present 0x02 afterP1).functional = true ∧ (present 0x02 afterP1).cfg.preConfigHook = [] ∧
    Mode.fast = modeSel (present 0x02 afterP1).counter (present 0x02 afterP1).fue ∧
    (0x59 : Byte) = tempCode (present 0x02 afterP1).cfg (present 0x02 afterP1).inp.temp .fast ∧
    (⟨0xDF, 0x8F⟩ : PanelSettings) = psrSel (present 0x02 afterP1).cfg (present 0x02 afterP1).psrBase .fast := by
  refine ⟨?_, ⟨rfl, rfl, rfl⟩, rfl, rfl, rfl, rfl, rfl⟩
  constructor <;> first | decide | exact trivial

theorem witness_PreviousIsTheLastRecordedFrame :
    afterP1.histValid = true ∧ 0 < afterP1.cfg.frameBytes ∧ 15 < afterP1.cfg.frameBytes ∧
    (State.resetWith kConfig).histValid = false := by decide

theorem witness_BlockResetMeetsTheInvariant :
    kConfig.wf = true ∧ Config.wf { kConfig with preConfigHook := [.rd, .cmd 0x02] } = true ∧
    afterP1.inp.placed = none := by decide

theorem witness_StepKeepsTheInvariant :
    Machine.Inv afterP1 ∧ ∃ t, step afterP1 = .next t := ⟨inv_afterP1, _, rfl⟩

theorem witness_StepKeepsFramesCanonical :
    FramesCanonical (present 0x02 afterP1) ∧ ∃ t, step (present 0x02 afterP1) = .next t :=
  ⟨by constructor <;> decide, _, rfl⟩

theorem inv_cycling : Machine.Inv (cycling .configuring 3 .fast) := by
  constructor <;> first | decide | exact trivial

theorem witness_QuietBlockIsNeverStuck :
    Machine.Inv (cycling .configuring 3 .fast) ∧ Quiet (cycling .configuring 3 .fast) ∧
    Quiet (present 0x01 afterP1) := ⟨inv_cycling, fun h => absurd h (by decide), fun _ => rfl⟩

theorem witness_EveryOperationEnds :
    Machine.Inv (cycling .configuring 3 .fast) ∧ (cycling .configuring 3 .fast).inp.hostcmdValid = false :=
  ⟨inv_cycling, rfl⟩

theorem witness_InputsAreSampledAtAcceptanceOnly : (cycling .transmittingFrame1 0 .fast).st ≠ .idle := by decide

/-- One step that changes each register. -/
theorem witness_RegistersHaveOnlyTheirWriters :
    kConfig.hookWf = true ∧ (present 0x01 afterP1).inp.placed = none ∧
    nextIs (step (present 0x01 afterP1)) (fun t => decide (t.functional ≠ afterP1.functional ∧
      t.init ≠ afterP1.init ∧ t.histValid ≠ afterP1.histValid ∧ t.counter ≠ afterP1.counter)) = true ∧
    nextIs (step (present 0x01 (setFullUpdateEvery 2 afterP1)))
      (fun t => decide (t.fue ≠ afterP1.fue)) = true ∧
    nextIs (step (present 0x02 afterP1)) (fun t => decide (t.mode ≠ afterP1.mode ∧
      t.tcode ≠ afterP1.tcode ∧ t.pf ≠ afterP1.pf)) = true ∧
    nextIs (step (reading .otpData1 0 [.ok] [0x00])) (fun t => decide (t.psrBase ≠ afterP1.psrBase)) = true ∧
    nextIs (step (reading .otpData0 0 [.ok] [0x00])) (fun t => decide (t.psrTmp0 ≠ 0xCF)) = true ∧
    nextIs (step (reading .otpProbe 0 [.ok] [0x00]))
      (fun t => decide (t.otpBank = .bank1 ∧ t.otpSkip = 8)) = true ∧
    nextIs (step (firstCycle .hwReset 0)) (fun t => decide (t.rst = .low)) = true ∧
    nextIs (step (reading .setupFin 0 [] [])) (fun t => decide (t.attached = .none)) = true ∧
    nextIs (step { cycling .waitBusy5 1 .fast with pf := framePB })
      (fun t => decide (t.hf ≠ framePA)) = true := by decide

theorem witness_HardwareResetRunsOncePerLifetime :
    afterP1.init = true ∧ (present 0x01 afterP1).inp.placed = none ∧
    nextIs (step (present 0x01 afterP1)) (fun t => decide (t.init = false)) = true ∧
    nextIs (step (present 0x02 { afterP1 with init := false, histValid := false }))
      (fun t => decide (t.st = .hwReset)) = true ∧
    nextIs (step { firstCycle .hwReset 7 with rst := .high })
      (fun t => decide (t.st = .waitBusy1)) = true := by decide

theorem witness_StepKeepsParametersAndSampledInputs : ∃ t, step (cycling .waitBusy1 0 .fast) = .next t := ⟨_, rfl⟩

theorem witness_StatusFlagsAreSticky :
    nextIs (step (present 0x02 { afterP1 with status := 0b0111 })) (fun t => decide (t.status = 0b0100)) = true ∧
    (present 0x02 afterP1).inp.placed = none ∧
    statusFlag 0b0111 .bus = true ∧ statusFlag 0b0111 .calibration = true := by decide

theorem witness_StepRunsTheFetchedInstruction :
    fetch (cycling .refresh 1 .fast) = some (.cmd 0x12) ∧
    (cycling .refresh 1 .fast).inp.hostcmdValid = false ∧ (cycling .refresh 1 .fast).cfg.paramsOk = true ∧
    fetch (present 0x02 afterP1) = some .update ∧ (present 0x02 afterP1).st = .idle ∧
    (present 0x02 afterP1).inp.hostcmdValid = true ∧
    decodeHost (present 0x02 afterP1).inp.hostcmd = .ok .update ∧
    (cycling .refresh 1 .fast).inp.placed = none ∧ decodeTableWord 8 0x02 = some .update ∧
    decodeTableWord 24 0x90003 = some (.err .configuration) ∧ decodeTableWord 8 0xE5 = some .tset :=
  ⟨rfl, rfl, by decide, rfl, rfl, rfl, rfl, rfl, rfl, rfl, rfl⟩

theorem witness_DecodeOfEncode :
    Instr.wf defaultAddrs (.delay 0xFFFF) = true ∧ Instr.wf defaultAddrs .border = true ∧
    Instr.wf { defaultAddrs with vcom := 0x82 } .vcom = true := by decide

theorem witness_EncodeOfDecode :
    decode defaultAddrs (.record 0x000FF) = .ok (.cmd 0xFF) ∧ decode defaultAddrs (.panel 0x50) = .ok .border ∧
    decode defaultAddrs (.host 0x03) = .ok .forceFull := ⟨rfl, rfl, rfl⟩

theorem witness_BusUnitsDecodeToTheirCommand :
    kConfig.addrs = defaultAddrs ∧ kConfig.borderValue ≠ kConfig.vcomValue ∧
    defaultAddrs.addressOf .vcom = some 0x50 ∧ payloadFits kConfig 16 [0x07] .vcom = true ∧
    defaultAddrs.addressOf .border = some 0x50 ∧ payloadFits kConfig 16 [0x27] .border = true := by decide

end Sys2Proof.Tests
end

/-! PROOFS. Family 00_scope: the raise of an error (R11, R26, R271), the panel commands as the micro-operations
of R111, and what no step changes (R6, R29, R175). -/

namespace Sys2Proof.Machine

/-! ### The raise of an error -/

/-- The mask of a kind's flag has that kind's bit and no other (R26). -/
theorem getLsbD_statusMask (k : ErrKind) (j : Nat) : (statusMask k).getLsbD j = decide (j = statusBit k) := by
  have hk : statusBit k < 4 := by cases k <;> decide
  rw [statusMask, ← BitVec.twoPow_eq, BitVec.getLsbD_twoPow]
  simp only [hk, decide_true, Bool.true_and, eq_comm]

/-- Setting a flag, bit by bit (R26, R283). -/
theorem getLsbD_setStatus (st : BitVec 4) (k : ErrKind) (j : Nat) :
    (setStatus st k).getLsbD j = (st.getLsbD j || decide (j = statusBit k)) := by
  rw [setStatus, BitVec.getLsbD_or, getLsbD_statusMask]

/-- Settles O10: ERR is `raise`, whose flag is `setStatus` bit by bit. -/
theorem errSetsItsFlagAndEmits : Obligations.ErrSetsItsFlagAndEmits := by
  intro k s
  refine ⟨setStatus s.status k, rfl, fun j _ => ?_⟩
  rw [getLsbD_setStatus]
  cases k <;> rfl

/-! ### Panel commands as lists of micro-operations -/

/-- A list of one instruction runs that instruction. -/
theorem runInstrs_singleton (i : Instr) (s : State) : runInstrs [i] s = exec i s :=
  andThen_next_right _

/-- `send_data` is one DAT per byte (R181). -/
theorem sendData_eq_runInstrs (bytes : List Byte) : sendData bytes = runInstrs (bytes.map .dat) := by
  induction bytes with
  | nil => rfl
  | cons b rest ih =>
    funext s
    have hb : exec (.dat b) s = sendByte b s := andThen_next_right _
    simp only [sendData, List.map_cons, runInstrs, hb, ih]

/-- `send_frame` is one BULK (R182). -/
theorem sendFrame_eq_runInstrs (src : FrameSrc) : sendFrame src = runInstrs [.bulk src] :=
  funext fun s => (runInstrs_singleton (.bulk src) s).symm

/-- A panel command runs as the micro-operations of its unit, one after the other (R96, R111). -/
theorem exec_panelCommand {i : Instr} (hi : i.isPanelCommand = true) (s : State) :
    exec i s = runInstrs (unitOps s i) s := by
  have data (a : Byte) (bytes : List Byte) :
      andThen (sendCommand a s) (sendData bytes) = runInstrs (.cmd a :: bytes.map .dat) s := by
    rw [sendData_eq_runInstrs]; rfl
  have frame (a : Byte) (src : FrameSrc) :
      andThen (sendCommand a s) (sendFrame src) = runInstrs [.cmd a, .bulk src] s := by
    rw [sendFrame_eq_runInstrs]; rfl
  cases i
  case tset | tsetEn | psr | border | vcom => exact data _ _
  case dtm1 | dtm2 => exact frame _ _
  case pon | drf | pof | otpRead => exact (runInstrs_singleton (.cmd _) s).symm
  all_goals exact absurd hi Bool.false_ne_true

/-- PSR_TX written out (R103, R145). -/
theorem psrTx_bytes (s : State) : ((psrTx s).byte0, (psrTx s).byte1) = (match s.mode with
    | .full => (s.psrBase.byte0, s.psrBase.byte1)
    | .fast => (s.psrBase.byte0 ||| s.cfg.psr0Fast, s.psrBase.byte1 ||| s.cfg.psr1Fast)) := by
  unfold psrTx
  cases s.mode <;> rfl

/-- The frame-2 source written out (R106, R241). -/
theorem frame2Src_eq (s : State) :
    frame2Src s = if s.mode = .fast ∧ s.histValid = true then .hf else .zf := by
  unfold frame2Src previousSrc
  cases s.mode <;> simp

/-- Settles O15: `exec_panelCommand` at each of the eleven, PSR_TX and the frame-2 source written out. -/
theorem panelCommandsAreTheirMicroOperations : Obligations.PanelCommandsAreTheirMicroOperations := by
  intro s p0 p1 src hp hsrc
  obtain ⟨rfl, rfl⟩ := Prod.mk.inj (hp.trans (psrTx_bytes s).symm)
  obtain rfl := hsrc.trans (frame2Src_eq s).symm
  and_intros <;> exact exec_panelCommand rfl s

/-! ### What no step changes -/

/-- The parameters and the sampled inputs of `t` are those of `s`, and the trace has only grown (R6, R29,
R175). -/
structure InputsKept (s t : State) : Prop where
  cfg : t.cfg = s.cfg
  grows : s.trace <+: t.trace
  lf : t.inp.lf = s.inp.lf
  temp : t.inp.temp = s.inp.temp
  fullUpdateEvery : t.inp.fullUpdateEvery = s.inp.fullUpdateEvery
  busy : t.inp.busy = s.inp.busy

/-- A change of other registers alone, with no event. -/
theorem InputsKept.of_eq {s t : State} (hc : t.cfg = s.cfg) (ht : t.trace = s.trace) (hi : t.inp = s.inp) :
    InputsKept s t := by
  refine ⟨hc, ht ▸ List.prefix_refl _, ?_, ?_, ?_, ?_⟩ <;> rw [hi]

theorem InputsKept.trans {s t u : State} (h : InputsKept s t) (h' : InputsKept t u) : InputsKept s u :=
  ⟨h'.cfg.trans h.cfg, h.grows.trans h'.grows, h'.lf.trans h.lf, h'.temp.trans h.temp,
    h'.fullUpdateEvery.trans h.fullUpdateEvery, h'.busy.trans h.busy⟩

theorem MicroFrame.inputsKept {s t : State} (h : MicroFrame s t) : InputsKept s t := by
  have hf := h.fields
  refine ⟨?_, h.grows, ?_, ?_, ?_, ?_⟩ <;> rw [hf]

theorem SequenceFrame.inputsKept {s t : State} (h : SequenceFrame s t) : InputsKept s t := by
  have hf := h.fields
  refine ⟨?_, h.grows, ?_, ?_, ?_, ?_⟩ <;> rw [hf]

/-- Taking the placed instruction keeps them (log entry 18). -/
theorem inputsKept_takePlaced (s : State) : InputsKept s (takePlaced s) :=
  ⟨rfl, List.prefix_refl _, rfl, rfl, rfl, rfl⟩

/-- The acceptance steps read the sampled inputs and write none of them (R201, R251 to R253). -/
theorem inputsKept_exec_hostOp {i : Instr} {s t : State} (hi : i.isHostOp = true)
    (h : exec i s = .next t) : InputsKept s t := by
  cases i
  case setup =>
    simp only [exec, execSetup] at h
    split at h
    · cases h
    · split at h <;> cases h
      · exact .of_eq rfl rfl rfl
      · exact ⟨rfl, List.prefix_append _ _, rfl, rfl, rfl, rfl⟩
  case update =>
    simp only [exec, execUpdate] at h
    split at h
    · cases h
    · split at h
      · cases h
        exact .of_eq rfl rfl rfl
      · split at h <;> cases h
        exact .of_eq rfl rfl rfl
  case forceFull =>
    simp only [exec, execForceFull] at h
    split at h <;> cases h
    exact .of_eq rfl rfl rfl
  all_goals exact absurd hi Bool.false_ne_true

/-- No instruction changes a parameter or a sampled input, and none takes an event back. -/
theorem inputsKept_exec {i : Instr} {s t : State} (h : exec i s = .next t) : InputsKept s t := by
  cases hi : i.isHostOp
  · exact (microFrame_exec hi h).inputsKept
  · exact inputsKept_exec_hostOp hi h

/-- Nor does a step with no instruction to run (R92, R215). -/
theorem inputsKept_bookkeep (s : State) : InputsKept s (bookkeep s) := by
  unfold bookkeep
  split
  · exact ⟨rfl, List.prefix_refl _, rfl, rfl, rfl, rfl⟩
  · exact .of_eq rfl rfl rfl
  all_goals exact (sequenceFrame_leave _ _).inputsKept

/-- A step runs a placed instruction, or does the bookkeeping, or runs the fetched instruction and what
follows it; each keeps them. -/
theorem inputsKept_step {s t : State} (h : step s = .next t) : InputsKept s t := by
  cases hp : s.inp.placed with
  | some i =>
    rw [step_of_placed hp] at h
    exact (inputsKept_takePlaced s).trans (inputsKept_exec h)
  | none =>
    obtain ⟨-, ⟨-, rfl⟩ | ⟨i, u, -, he, rfl⟩⟩ := (step_eq_next hp).1 h
    · exact inputsKept_bookkeep s
    · exact (inputsKept_exec he).trans (sequenceFrame_sequence s u).inputsKept

/-- Settles O54: every part of a step keeps the parameters and the sampled inputs, whether an instruction was
placed or not. -/
theorem stepKeepsParametersAndSampledInputs : Obligations.StepKeepsParametersAndSampledInputs := by
  intro s t h
  obtain ⟨hcfg, htrace, hlf, htemp, hfue, hbusy⟩ := inputsKept_step h
  exact ⟨hcfg, htrace, hlf, htemp, hfue, hbusy⟩

end Sys2Proof.Machine

/-! PROOFS. Family 10_state: the frames of the micro-operations (R21), what each kind of step may write, and what
follows from it: R38's invariant, the writers of each register, the noninterference of STATUS and of the sampled
inputs. -/

namespace Sys2Proof.Machine

/-! ### Frames of the micro-operations -/

theorem MemoryUnchanged.of_eq {s t : State} (hpf : t.pf = s.pf) (hhf : t.hf = s.hf)
    (hlf : t.inp.lf = s.inp.lf) : MemoryUnchanged s t := by
  intro a
  rw [hpf, hhf, hlf]
  exact ⟨rfl, rfl, rfl⟩

/-- What is not a host operation stores nothing (R21). -/
theorem memoryUnchanged_exec {i : Instr} {s t : State} (hi : i.isHostOp = false)
    (h : exec i s = .next t) : MemoryUnchanged s t := by
  have hf := (microFrame_exec hi h).fields
  apply MemoryUnchanged.of_eq <;> rw [hf]

/-- Settles O16: the five bus forms are the instructions that only make transactions. -/
theorem busOperationsFrame : Obligations.BusOperationsFrame := by
  intro i s t hi h
  have ht : onlyTransactions i = true ∧ i.isHostOp = false := by
    rcases hi with ⟨a, rfl⟩ | ⟨b, rfl⟩ | ⟨src, rfl⟩ | rfl | hi
    iterate 4 exact ⟨rfl, rfl⟩
    have hpanel : ∀ j ∈ panelCommands, onlyTransactions j = true ∧ j.isHostOp = false := by decide
    exact hpanel i hi
  exact ⟨transactionFrame_exec ht.1 h, memoryUnchanged_exec ht.2 h⟩

/-- A wait moves no flag but BUSY_TO, and beside the trace only the answers still to come (R185). -/
theorem waitBusy_frame (s : State) :
    waitBusy s = { s with
      status := (waitBusy s).status, trace := (waitBusy s).trace,
      inp := { s.inp with
        waitOutcomes := (waitBusy s).inp.waitOutcomes, draws := (waitBusy s).inp.draws } } ∧
    ∀ k, k ≠ .busyTimeout → statusFlag (waitBusy s).status k = statusFlag s.status k := by
  obtain ⟨st, w, n, evs, h, hst, -⟩ := waitBusy_cases s
  rw [h]
  refine ⟨rfl, fun k hk => ?_⟩
  rcases hst with rfl | rfl
  · rfl
  · exact statusFlag_setStatus_of_ne _ hk

/-- ATTACH and DETACH move the bus device alone (R187, R188). -/
theorem attached_frame_exec {i : Instr} {s t : State} (hi : ∃ d, i = .attach d ∨ i = .detach d)
    (h : exec i s = .next t) : t = { s with attached := t.attached, trace := t.trace } := by
  obtain ⟨d, rfl | rfl⟩ := hi
  · simp only [exec, execAttach] at h
    split at h <;> cases h
    rfl
  · simp only [exec, execDetach] at h
    split at h <;> cases h
    rfl

/-- Settles O17: each of the six writes what its rule names, and none is a host operation. -/
theorem pinWaitAndErrFrame : Obligations.PinWaitAndErrFrame := by
  intro i s t h
  have hm : i.isHostOp = false → MemoryUnchanged s t := fun hi => memoryUnchanged_exec hi h
  refine ⟨?_, ?_, ?_, fun hi => ⟨attached_frame_exec hi h, hm ?_⟩, ?_⟩
  · rintro rfl
    cases h
    exact ⟨(waitBusy_frame s).1, (waitBusy_frame s).2, hm rfl⟩
  · rintro ⟨d, rfl⟩
    cases h
    exact ⟨rfl, hm rfl⟩
  · rintro ⟨l, rfl⟩
    cases h
    exact ⟨rfl, hm rfl⟩
  · obtain ⟨d, rfl | rfl⟩ := hi <;> rfl
  · rintro k rfl
    cases h
    exact ⟨rfl, fun j hj => statusFlag_setStatus_of_ne _ hj, hm rfl⟩

/-! ### A step in flight -/

/-- What every step in flight keeps, the completion step left out: the parameters, the registers that only a
host operation or the completion writes, LF, and the flags of STATUS that are set. -/
structure FlightFrame (s t : State) : Prop where
  cfg : t.cfg = s.cfg
  histValid : t.histValid = s.histValid
  mode : t.mode = s.mode
  tcode : t.tcode = s.tcode
  counter : t.counter = s.counter
  fue : t.fue = s.fue
  pf : t.pf = s.pf
  hf : t.hf = s.hf
  lf : t.inp.lf = s.inp.lf
  placed : t.inp.placed = s.inp.placed
  restsAtData : s.dc = .data → t.dc = .data
  flags : ∀ k, statusFlag s.status k = true → statusFlag t.status k = true

theorem MicroFrame.flight {s u : State} (h : MicroFrame s u) : FlightFrame s u := by
  refine ⟨?_, ?_, ?_, ?_, ?_, ?_, ?_, ?_, ?_, ?_, h.restsAtData, h.flags⟩ <;> rw [h.fields]

theorem SequenceFrame.flight {u t : State} (h : SequenceFrame u t) : FlightFrame u t := by
  refine ⟨?_, ?_, ?_, ?_, ?_, ?_, ?_, ?_, ?_, ?_, ?_, h.flags⟩ <;> rw [h.fields]
  exact id

theorem FlightFrame.trans {s u t : State} (h : FlightFrame s u) (h' : FlightFrame u t) : FlightFrame s t where
  cfg := h'.cfg.trans h.cfg
  histValid := h'.histValid.trans h.histValid
  mode := h'.mode.trans h.mode
  tcode := h'.tcode.trans h.tcode
  counter := h'.counter.trans h.counter
  fue := h'.fue.trans h.fue
  pf := h'.pf.trans h.pf
  hf := h'.hf.trans h.hf
  lf := h'.lf.trans h.lf
  placed := h'.placed.trans h.placed
  restsAtData := h'.restsAtData ∘ h.restsAtData
  flags k := h'.flags k ∘ h.flags k

/-- How a step in flight, the completion step left out, gets from `s` to `t`: a list that is empty or done is
left (R162; log entry 12), or the instruction fetched runs and `sequence` follows. -/
inductive FlightStep (s : State) : State → Prop
  | leaves (hf : fetch s = none) : FlightStep s (leave s.st s)
  | runs {i : Instr} {u : State} (hf : fetch s = some i) (he : exec i s = .next u) (hm : MicroFrame s u) :
      FlightStep s (sequence s u)

theorem FlightStep.frame {s t : State} (h : FlightStep s t) : FlightFrame s t := by
  cases h with
  | leaves => exact (sequenceFrame_leave s.st s).flight
  | runs _ _ hm => exact hm.flight.trans (sequenceFrame_sequence s _).flight

/-- With an instruction to run, it runs. -/
theorem FlightStep.of_remaining {s t : State} {i : Instr} {rest : List Instr} (h : FlightStep s t)
    (hr : remaining s = i :: rest) : ∃ u, exec i s = .next u ∧ MicroFrame s u ∧ t = sequence s u := by
  have hi : fetch s = some i := by rw [fetch, hr]; rfl
  cases h with
  | leaves hf => rw [hi] at hf; cases hf
  | runs hf he hm =>
    rw [hi] at hf
    cases hf
    exact ⟨_, he, hm, rfl⟩

/-- The steps of the block with nothing placed, by name (`step_cases`). -/
inductive StepCase (s : State) : State → Prop
  /-- Nothing runs at rest, or an UPDATE of a block that is not functional (R92, R252). -/
  | rest (hs : s.st = .idle) : StepCase s (withdrawHostcmd s)
  | setupAccepted (hp : Presented 0x01#8 s) (hc : s.cfg.configOk s.inp.fullUpdateEvery = true) :
      StepCase s (withdrawHostcmd (setupStarts s))
  | setupAborted (hp : Presented 0x01#8 s) : StepCase s (withdrawHostcmd (setupAborts s))
  | updateAccepted (hp : Presented 0x02#8 s) (hf : s.functional = true) :
      StepCase s (withdrawHostcmd (updateStarts s))
  | forceFull (hp : Presented 0x03#8 s) : StepCase s (withdrawHostcmd { s with counter := 0 })
  | completion (hs : s.st = .waitBusy5) : StepCase s (complete s)
  | flight {t : State} (hs : s.st ≠ .idle) (h : FlightStep s t) : StepCase s t

theorem stepCase_of_step {s t : State} (hp : s.inp.placed = none) (h : step s = .next t) : StepCase s t := by
  rcases step_cases hp h with ⟨hs, rfl⟩ | ⟨hp, rfl⟩ | ⟨hp, hf, -, rfl⟩ | ⟨hp, rfl⟩ |
    ⟨hs, -, -, ⟨hf, ⟨hw, rfl⟩ | ⟨-, rfl⟩⟩ | ⟨i, u, hf, -, he, hm, rfl⟩⟩
  · exact .rest hs
  · split
    · exact .setupAccepted hp ‹_›
    · exact .setupAborted hp
  · exact .updateAccepted hp hf
  · exact .forceFull hp
  · exact .completion hw
  · exact .flight hs (.leaves hf)
  · exact .flight hs (.runs hf he hm)

/-! ### What follows an instruction, register by register -/

/-- The states of the Calibration Reader that run a transaction and act on its answer (R159 to R165). -/
def St.reads (q : St) : Bool :=
  decide (q ∈ [St.otpCmd, .otpDummy, .otpProbe, .otpSkip, .otpData0, .otpData1])

/-- Is `q` a state that the reader goes on to, with CAL attached (R157, R167)? -/
def St.readerGoesTo (q : St) : Prop := q.inSetup = true ∧ setupDevice q 0 .cal

/-- What follows the instruction of the state that `u` stands in, `t` being the result: which registers it
writes in which state (R159 to R168, R203), and where the pc goes. -/
structure Follows (u t : State) : Prop where
  functional : u.st ≠ .setupFin → t.functional = u.functional
  init : t.init = u.init ∨ (u.st = .hwReset ∧ t.init = true)
  psrBase : u.st.inSetup = false → t.psrBase = u.psrBase
  psrTmp0 : u.st ≠ .otpData0 → t.psrTmp0 = u.psrTmp0
  otpBank : u.st ≠ .otpProbe → t.otpBank = u.otpBank
  otpSkip : u.st ≠ .otpProbe → u.st ≠ .otpSkip → t.otpSkip = u.otpSkip
  entersHwReset : t.st = .hwReset → u.st = .hwReset
  leavesHwReset : u.st = .hwReset → t.st = .hwReset ∨ (t.st = .waitBusy1 ∧ t.init = true)
  cycle : u.st.inCycle = true → t.st.inCycle = true
  reader : u.st.reads = true → u.sub = 0 → t.sub = 0 ∧ t.st.readerGoesTo

/-- Going on to the next micro-operation of a list writes no register. -/
theorem follows_nextSub {u : State} (h : u.st.reads = false) : Follows u (nextSub u) := by
  constructor <;> simp_all

/-- Leaving a state (R24, R168, R203). -/
theorem follows_leave (u : State) : Follows u (leave u.st u) := by
  cases hq : u.st <;> constructor <;>
    simp [leave, hq, St.succ, St.inSetup, St.inCycle, St.reads, St.readerGoesTo, setupDevice]

theorem follows_advance {s u : State} (hu : u.st = s.st) (hr : u.st.reads = false) :
    Follows u (advance s u) := by
  unfold advance
  split
  · exact hu ▸ follows_leave u
  · exact follows_nextSub hr

/-- The failure step and a commit go on to SetupFin, where CAL is still attached (R166, R167). -/
theorem readerGoesTo_setupFin : St.readerGoesTo .setupFin := ⟨rfl, .inl ⟨rfl, rfl⟩⟩

/-- In a state of the reader: the registers that its rule does not write, and where it goes on to. -/
theorem Follows.of_reader {u t : State} (hu : u.st.reads = true) (hq : t.st.readerGoesTo)
    (hn : u.sub = 0 → t.sub = 0 := by intros; rfl)
    (hf : t.functional = u.functional := by rfl) (hi : t.init = u.init := by rfl)
    (ht : u.st ≠ .otpData0 → t.psrTmp0 = u.psrTmp0 := by intros; rfl)
    (hb : u.st ≠ .otpProbe → t.otpBank = u.otpBank := by intros; rfl)
    (hs : u.st ≠ .otpProbe → u.st ≠ .otpSkip → t.otpSkip = u.otpSkip := by intros; rfl) : Follows u t := by
  obtain ⟨hset, hreset, hcycle⟩ : u.st.inSetup = true ∧ u.st ≠ .hwReset ∧ u.st.inCycle = false := by
    revert hu
    cases u.st <;> decide
  exact {
    functional := fun _ => hf
    init := .inl hi
    psrBase := fun h => nomatch h.symm.trans hset
    psrTmp0 := ht
    otpBank := hb
    otpSkip := hs
    entersHwReset := fun h => by
      rw [h] at hq
      exact nomatch hq.1
    leavesHwReset := fun h => absurd h hreset
    cycle := fun h => nomatch h.symm.trans hcycle
    reader := fun _ hsub => ⟨hn hsub, hq⟩ }

theorem follows_goto {q : St} {u : State} (hu : u.st.reads = true) (hq : q.readerGoesTo) :
    Follows u (goto q u) := .of_reader hu hq

theorem follows_calibrationFails {u : State} (hu : u.st.reads = true) : Follows u (calibrationFails u) :=
  .of_reader hu readerGoesTo_setupFin

theorem follows_afterRead {u : State} (hu : u.st.reads = true) (st : TxStatus) {good : State → State}
    (hg : Follows u (good u)) : Follows u (afterRead st good u) := by
  cases st
  · exact hg
  · exact .of_reader hu readerGoesTo_setupFin

/-- OtpProbe chooses the bank and goes on to OtpSkip (R161). -/
theorem follows_selectBank {u : State} (hu : u.st = .otpProbe) (p : Byte) :
    Follows u (goto .otpSkip (selectBank p u)) := by
  have hr : u.st.reads = true := by rw [hu]; rfl
  unfold selectBank
  split <;> exact .of_reader hr ⟨rfl, rfl, rfl⟩ (hb := fun h => absurd hu h) (hs := fun h => absurd hu h)

/-- OtpSkip counts OTP_SKIP down and stays, or goes on to OtpData0 (R162). -/
theorem follows_skipOne {u : State} (hu : u.st = .otpSkip) : Follows u (skipOne u) := by
  have hr : u.st.reads = true := by rw [hu]; rfl
  by_cases h : u.otpSkip - 1 = 0
  · rw [skipOne_of_zero h]
    exact .of_reader hr ⟨rfl, rfl, rfl⟩ (hs := fun _ h => absurd hu h)
  · have hstay : u.st.readerGoesTo := by rw [hu]; exact ⟨rfl, rfl, rfl⟩
    rw [skipOne_of_ne h]
    exact .of_reader hr hstay (hn := id) (hs := fun _ h => absurd hu h)

/-- OtpData0 keeps the byte it reads (R164). -/
theorem follows_otpData0 {u : State} (hu : u.st = .otpData0) (b : Byte) :
    Follows u (goto .otpData1 { u with psrTmp0 := b }) :=
  .of_reader (by rw [hu]; rfl) ⟨rfl, rfl, rfl⟩ (ht := fun h => absurd hu h)

theorem follows_commit {u : State} (hu : u.st = .otpData1) (d : Byte) : Follows u (commit d u) := by
  have hr : u.st.reads = true := by rw [hu]; rfl
  unfold commit
  split
  · exact .of_reader hr readerGoesTo_setupFin
  · exact follows_calibrationFails hr

theorem follows_sequence {s u : State} (hs : s.st ≠ .idle) (hu : u.st = s.st) :
    Follows u (sequence s u) := by
  have reads {q : St} (hq : s.st = q) (h : q.reads = true) : u.st.reads = true := by rw [hu, hq, h]
  unfold Machine.sequence
  split <;> rename_i hq
  · exact absurd hq hs
  · have hr := reads hq rfl
    split
    · exact follows_goto hr ⟨rfl, rfl, rfl⟩
    · exact follows_calibrationFails hr
  · have hr := reads hq rfl
    exact follows_afterRead hr _ (follows_goto hr ⟨rfl, rfl, rfl⟩)
  · exact follows_afterRead (reads hq rfl) _ (follows_selectBank (hu.trans hq) _)
  · exact follows_afterRead (reads hq rfl) _ (follows_skipOne (hu.trans hq))
  · exact follows_afterRead (reads hq rfl) _ (follows_otpData0 (hu.trans hq) _)
  · exact follows_afterRead (reads hq rfl) _ (follows_commit (hu.trans hq) _)
  all_goals exact follows_advance hu (by rw [hu, hq]; rfl)

/-! ### The output levels and the bus device in flight -/

/-- The reset line moves in SetupCheck and HwReset only, the bus device in SetupCheck and SetupFin only (R158,
R168, R203). -/
structure PinsFrame (s u : State) : Prop where
  rst : s.st ≠ .setupCheck → s.st ≠ .hwReset → u.rst = s.rst
  attached : s.st ≠ .setupCheck → s.st ≠ .setupFin → u.attached = s.attached

/-- A micro-operation that may stand in a hook moves neither. -/
theorem pinsFrame_hookable {s u : State} {m : MicroOp} (hm : m.hookable = true)
    (he : exec m.instr s = .next u) : PinsFrame s u := by
  obtain ⟨hr, ha⟩ := hookable_exec hm he
  exact ⟨fun _ _ => hr, fun _ _ => ha⟩

/-- Everything a state in flight has to run keeps it, the hook being of transactions, waits and delays (R205;
log entry 28). -/
theorem pinsFrame_exec {s u : State} {i : Instr} (hc : s.cfg.hookWf = true) (hs : s.st ≠ .idle)
    (hf : fetch s = some i) (he : exec i s = .next u) : PinsFrame s u := by
  rcases mem_remaining hs (mem_remaining_of_fetch hf) with
    (⟨a, rfl⟩ | ⟨b, rfl⟩ | ⟨src, rfl⟩) | rfl | rfl | ⟨hq, hi⟩ | ⟨hq, -⟩ | ⟨hq, hi⟩ | ⟨-, m, hm, rfl⟩
  · exact pinsFrame_hookable (m := .cmd a) rfl he
  · exact pinsFrame_hookable (m := .dat b) rfl he
  · exact pinsFrame_hookable (m := .bulk src) rfl he
  · exact pinsFrame_hookable (m := .rd) rfl he
  · exact pinsFrame_hookable (m := .bwait) rfl he
  · refine ⟨fun _ h => absurd hq h, fun _ _ => ?_⟩
    rcases hi with ⟨l, rfl⟩ | ⟨d, rfl⟩ <;> cases he <;> rfl
  · exact ⟨fun h => absurd hq h, fun h => absurd hq h⟩
  · refine ⟨fun _ _ => ?_, fun _ h => absurd hq h⟩
    have hd : ∃ d, i = .attach d ∨ i = .detach d := by
      rcases hi with rfl | rfl
      · exact ⟨_, .inr rfl⟩
      · exact ⟨_, .inl rfl⟩
    rw [attached_frame_exec hd he]
  · exact pinsFrame_hookable (hookable_of_mem hc hm) he

/-- The instruction before it moves none of the registers `Follows` speaks of. -/
theorem MicroFrame.follows {s u t : State} (hm : MicroFrame s u) (h : Follows u t) : Follows s t := by
  rw [hm.fields] at h
  exact ⟨h.functional, h.init, h.psrBase, h.psrTmp0, h.otpBank, h.otpSkip, h.entersHwReset, h.leavesHwReset,
    h.cycle, h.reader⟩

/-- A step in flight writes only the registers of its state, and goes on as R157 and R200 say. -/
theorem FlightStep.follows {s t : State} (h : FlightStep s t) (hs : s.st ≠ .idle) : Follows s t := by
  cases h with
  | leaves => exact follows_leave s
  | runs _ _ hm => exact hm.follows (follows_sequence hs (by rw [hm.fields]))

theorem SequenceFrame.pinsFrame {s u t : State} (h : SequenceFrame u t) (hp : PinsFrame s u) : PinsFrame s t := by
  rw [h.fields]
  exact ⟨hp.rst, hp.attached⟩

theorem FlightStep.pins {s t : State} (h : FlightStep s t) (hc : s.cfg.hookWf = true) (hs : s.st ≠ .idle) :
    PinsFrame s t := by
  cases h with
  | leaves => exact (sequenceFrame_leave s.st s).pinsFrame ⟨fun _ _ => rfl, fun _ _ => rfl⟩
  | runs hf he => exact (sequenceFrame_sequence s _).pinsFrame (pinsFrame_exec hc hs hf he)

/-! ### The invariant of R38 -/

/-- CONFIG_OK, part by part (R255). -/
theorem configOk_iff {c : Config} {f : Word} : c.configOk f = true ↔ c.paramsOk = true ∧ f ≠ 0 := by
  simp [Config.configOk]

@[simp] theorem restingRst_of_ne {q : St} (hq : q ≠ .hwReset) (n : Half) : restingRst q n = .high :=
  if_neg fun h => hq h.1

/-- What the invariant says at rest: of R38's items, those that are not about a setup or a cycle in flight. -/
structure InvAtRest (s : State) : Prop where
  config : s.cfg.wf = true
  unplaced : s.inp.placed = none
  st : s.st = .idle
  sub : s.sub = 0
  dc : s.dc = .data
  rst : s.rst = .high
  recorded : s.histValid = true → s.init = true ∧ s.hf = s.pf
  uncounted : s.histValid = false → s.counter = 0
  functionalReady : s.functional = true → s.attached = .wr ∧ s.fue ≠ 0 ∧ s.cfg.paramsOk = true
  restDevice : s.functional = false →
    s.attached = .none ∨ (s.attached = .wr ∧ statusFlag s.status .configuration = true)

theorem InvAtRest.inv {s : State} (h : InvAtRest s) : Inv s where
  config := h.config
  unplaced := h.unplaced
  restDc := h.dc
  recorded _ hv := (h.recorded hv).2
  uncounted := h.uncounted
  fastRecorded hc := by rw [h.st] at hc; cases hc
  functionalReady hf _ := h.functionalReady hf
  restDevice _ := h.restDevice
  restPc _ := h.sub
  resetLine := by rw [h.rst, h.st, restingRst_of_ne (by decide)]
  hwResetFirst hq := by rw [h.st] at hq; cases hq
  cycleInit hc := by rw [h.st] at hc; cases hc
  recordedInit hv := (h.recorded hv).1
  cycleFunctional hc := by rw [h.st] at hc; cases hc
  setupFresh hc := by rw [h.st] at hc; cases hc
  setupAttached := by rw [h.st]; trivial

theorem Inv.atRest {s : State} (h : Inv s) (hs : s.st = .idle) : InvAtRest s where
  config := h.config
  unplaced := h.unplaced
  st := hs
  sub := h.restPc hs
  dc := h.restDc
  rst := by rw [h.resetLine, hs, restingRst_of_ne (by decide)]
  recorded hv := ⟨h.recordedInit hv, h.recorded hs hv⟩
  uncounted := h.uncounted
  functionalReady hf := h.functionalReady hf (by rw [hs]; rfl)
  restDevice := h.restDevice hs

/-- What the invariant says in a setup in flight (R38, R156, R251). -/
structure InvInSetup (s : State) : Prop where
  config : s.cfg.wf = true
  unplaced : s.inp.placed = none
  st : s.st.inSetup = true
  dc : s.dc = .data
  rst : s.rst = .high
  functional : s.functional = false
  init : s.init = false
  histValid : s.histValid = false
  counter : s.counter = 0
  accepted : s.fue ≠ 0 ∧ s.cfg.paramsOk = true
  device : setupDevice s.st s.sub s.attached

/-- No state of a setup is Idle or a state of a cycle. -/
theorem St.inSetup_ne {q : St} (h : q.inSetup = true) : q ≠ .idle ∧ q ≠ .hwReset ∧ q.inCycle = false := by
  revert h
  cases q <;> decide

theorem InvInSetup.inv {s : State} (h : InvInSetup s) : Inv s := by
  obtain ⟨hidle, hreset, hcycle⟩ := St.inSetup_ne h.st
  exact {
    config := h.config
    unplaced := h.unplaced
    restDc := h.dc
    recorded := fun hs => absurd hs hidle
    uncounted := fun _ => h.counter
    fastRecorded := fun hs => nomatch hs.symm.trans hcycle
    functionalReady := fun hf => nomatch hf.symm.trans h.functional
    restDevice := fun hs => absurd hs hidle
    restPc := fun hs => absurd hs hidle
    resetLine := h.rst.trans (restingRst_of_ne hreset _).symm
    hwResetFirst := fun hs => absurd hs hreset
    cycleInit := fun hs => nomatch hs.symm.trans hcycle
    recordedInit := fun hv => nomatch hv.symm.trans h.histValid
    cycleFunctional := fun hs => nomatch hs.symm.trans hcycle
    setupFresh := fun _ => ⟨h.functional, h.init, h.histValid, h.accepted⟩
    setupAttached := h.device }

theorem Inv.inSetup {s : State} (h : Inv s) (hs : s.st.inSetup = true) : InvInSetup s := by
  obtain ⟨hf, hi, hv, ha⟩ := h.setupFresh hs
  exact ⟨h.config, h.unplaced, hs, h.restDc,
    h.resetLine.trans (restingRst_of_ne (St.inSetup_ne hs).2.1 _), hf, hi, hv, h.uncounted hv, ha,
    h.setupAttached⟩

/-- What the invariant says in a cycle in flight (R38, R202). -/
structure InvInCycle (s : State) : Prop where
  config : s.cfg.wf = true
  unplaced : s.inp.placed = none
  st : s.st.inCycle = true
  dc : s.dc = .data
  rst : s.rst = restingRst s.st s.sub
  functional : s.functional = true
  ready : s.attached = .wr ∧ s.fue ≠ 0 ∧ s.cfg.paramsOk = true
  hwReset : s.st = .hwReset → s.init = false ∧ s.sub.toNat < 8
  init : s.st ≠ .hwReset → s.init = true
  fastRecorded : s.mode = .fast → s.histValid = true
  recordedInit : s.histValid = true → s.init = true
  uncounted : s.histValid = false → s.counter = 0

/-- No state of a cycle is Idle or a state of a setup. -/
theorem St.inCycle_ne {q : St} (h : q.inCycle = true) :
    q ≠ .idle ∧ q.inSetup = false ∧ q ≠ .setupCheck ∧ q ≠ .setupFin ∧ ∀ n d, setupDevice q n d := by
  revert h
  cases q <;> simp [St.inCycle, St.inSetup, setupDevice]

theorem InvInCycle.inv {s : State} (h : InvInCycle s) : Inv s := by
  obtain ⟨hidle, hsetup, -, -, hdev⟩ := St.inCycle_ne h.st
  exact {
    config := h.config
    unplaced := h.unplaced
    restDc := h.dc
    recorded := fun hs => absurd hs hidle
    uncounted := h.uncounted
    fastRecorded := fun _ => h.fastRecorded
    functionalReady := fun _ _ => h.ready
    restDevice := fun hs => absurd hs hidle
    restPc := fun hs => absurd hs hidle
    resetLine := h.rst
    hwResetFirst := h.hwReset
    cycleInit := fun _ => h.init
    recordedInit := h.recordedInit
    cycleFunctional := fun _ => h.functional
    setupFresh := fun hs => nomatch hs.symm.trans hsetup
    setupAttached := hdev _ _ }

theorem Inv.inCycle {s : State} (h : Inv s) (hs : s.st.inCycle = true) : InvInCycle s :=
  have hf := h.cycleFunctional hs
  ⟨h.config, h.unplaced, hs, h.restDc, h.resetLine, hf, h.functionalReady hf (St.inCycle_ne hs).2.1,
    h.hwResetFirst, h.cycleInit hs, h.fastRecorded hs, h.recordedInit, h.uncounted⟩

/-- At rest no item needs the device CAL. -/
theorem InvAtRest.attached_ne_cal {s : State} (h : InvAtRest s) : s.attached ≠ .cal := by
  cases hf : s.functional
  · rcases h.restDevice hf with h | ⟨h, -⟩ <;> simp [h]
  · simp [(h.functionalReady hf).1]

/-- Block reset brings every flag to 0 and no device (R37, R301). -/
theorem inv_blockReset (u : Unspecified) {s : State} (hc : s.cfg.wf = true) (hp : s.inp.placed = none) :
    Inv (blockReset u s) :=
  InvAtRest.inv ⟨hc, hp, rfl, rfl, rfl, rfl, fun h => absurd h Bool.false_ne_true, fun _ => rfl,
    fun h => absurd h Bool.false_ne_true, fun _ => .inl rfl⟩

/-- Settles O45: `inv_blockReset`, State.reset being the block reset of a block that holds zeros. -/
theorem blockResetMeetsTheInvariant : Obligations.BlockResetMeetsTheInvariant :=
  ⟨fun u _ => inv_blockReset u,
    inv_blockReset ⟨0, ⟨0, 0⟩, 0, 0, [], []⟩ (s := State.reset) (by decide) rfl,
    ⟨rfl, rfl, rfl, rfl, rfl, rfl, rfl⟩⟩

/-! ### The steps at rest keep the invariant -/

/-- The end of a presentation keeps it: no item speaks of HOSTCMD_VALID. -/
theorem Inv.withdrawHostcmd {s : State} (h : Inv s) : Inv (withdrawHostcmd s) := { h with }

/-- FORCE_FULL keeps it (R253). -/
theorem Inv.forceFull {s : State} (h : Inv s) : Inv { s with counter := 0 } :=
  { h with uncounted := fun _ => rfl }

/-- A SETUP that fails leaves a device attached only with CONFIG_ERR set (R38 item 4, R251). -/
theorem InvAtRest.setupAborts {s : State} (h : InvAtRest s) : InvAtRest (setupAborts s) := by
  refine { h with
    st := rfl, sub := rfl, functionalReady := fun hf => (nomatch hf), restDevice := fun _ => ?_ }
  have hflag : statusFlag (Machine.setupAborts s).status .configuration = true := statusFlag_setStatus_self _ _
  cases ha : s.attached
  · exact .inl ha
  · exact absurd ha h.attached_ne_cal
  · exact .inr ⟨ha, hflag⟩

/-- A SETUP that is accepted begins a new lifetime (R251). -/
theorem InvAtRest.setupStarts {s : State} (h : InvAtRest s)
    (hc : s.cfg.configOk s.inp.fullUpdateEvery = true) : InvInSetup (setupStarts s) :=
  ⟨h.config, h.unplaced, rfl, rfl, h.rst, rfl, rfl, rfl, rfl, (configOk_iff.1 hc).symm,
    .inl ⟨rfl, h.attached_ne_cal⟩⟩

/-- A cycle is Fast only once a frame is recorded: before that COUNTER is 0 (R38 item 2, R140). -/
theorem histValid_of_modeSel_fast {s : State} (hu : s.histValid = false → s.counter = 0)
    (hm : modeSel s.counter s.fue = .fast) : s.histValid = true := by
  by_contra hv
  rw [hu (by simpa using hv)] at hm
  simp [modeSel] at hm

/-- An UPDATE that is accepted starts in HwReset exactly if INIT is 0 (R201, R202). -/
theorem InvAtRest.updateStarts {s : State} (h : InvAtRest s) (hf : s.functional = true) :
    InvInCycle (updateStarts s) where
  config := h.config
  unplaced := h.unplaced
  st := by cases hi : s.init <;> simp [Machine.updateStarts, hi, St.inCycle]
  dc := h.dc
  rst := by cases hi : s.init <;> simp [Machine.updateStarts, hi, restingRst, h.rst]
  functional := hf
  ready := h.functionalReady hf
  hwReset := by cases hi : s.init <;> simp [Machine.updateStarts, hi]
  init := by cases hi : s.init <;> simp [Machine.updateStarts, hi]
  fastRecorded := histValid_of_modeSel_fast h.uncounted
  recordedInit hv := (h.recorded hv).1
  uncounted := h.uncounted

/-- The completion step records the frame and counts the cycle (R215, R240). -/
theorem InvInCycle.complete {s : State} (h : InvInCycle s) (hs : s.st = .waitBusy5) :
    InvAtRest (complete s) where
  config := h.config
  unplaced := h.unplaced
  st := rfl
  sub := rfl
  dc := h.dc
  rst := h.rst.trans (by rw [hs, restingRst_of_ne (by decide)])
  recorded _ := ⟨h.init (by rw [hs]; decide), rfl⟩
  uncounted hv := nomatch hv
  functionalReady _ := h.ready
  restDevice hn := nomatch hn.symm.trans h.functional

/-! ### A cycle in flight keeps the invariant -/

/-- Going down a list: what follows its last micro-operation, and any other. -/
theorem advance_of_remaining {s u : State} {i : Instr} {rest : List Instr} (h : remaining s = i :: rest) :
    advance s u = if rest = [] then leave s.st u else nextSub u := by
  unfold advance
  rw [h]
  cases rest <;> rfl

/-- One position of HwReset: where the reset line then stands, high at the end (R203). -/
theorem rst_exec_hwReset {s u : State} {i : Instr} {rest : List Instr} (hs : s.st = .hwReset)
    (hn : s.sub.toNat < 8) (hr : s.rst = restingRst .hwReset s.sub) (hl : remaining s = i :: rest)
    (he : exec i s = .next u) :
    u.rst = restingRst .hwReset (s.sub + 1) ∧ (rest = [] → u.rst = .high) ∧
      (rest ≠ [] → (s.sub + 1).toNat < 8) := by
  unfold remaining at hl
  rw [hs] at hl
  obtain ⟨n, hsub, hn⟩ : ∃ n, s.sub = BitVec.ofNat 16 n ∧ n < 8 := ⟨s.sub.toNat, by simp, hn⟩
  rw [hsub] at hl hr ⊢
  interval_cases n
  all_goals
    cases hl
    cases he
    simp [restingRst, hr]

/-- HwReset goes down its eight positions and is left with INIT = 1 (R203). -/
theorem InvInCycle.hwResetStep {s t : State} (h : InvInCycle s) (hs : s.st = .hwReset)
    (hstep : FlightStep s t) :
    (t.st = .hwReset ∧ t.init = false ∧ t.sub.toNat < 8 ∧ t.rst = restingRst .hwReset t.sub) ∨
      (t.st = .waitBusy1 ∧ t.init = true ∧ t.rst = .high) := by
  obtain ⟨hinit, hn⟩ := h.hwReset hs
  obtain ⟨i, rest, hl⟩ : ∃ i rest, remaining s = i :: rest := by
    refine List.exists_cons_of_length_pos ?_
    rw [remaining_eq_drop (by rw [hs]; rfl)]
    simp [stateList, hs, hwResetOps, hn]
  obtain ⟨u, he, hm, rfl⟩ := hstep.of_remaining hl
  obtain ⟨hrst, hlast, hmore⟩ := rst_exec_hwReset hs hn (by rw [h.rst, hs]) hl he
  have hu : u.st = .hwReset ∧ u.sub = s.sub ∧ u.init = false := by
    rw [hm.fields]
    exact ⟨hs, rfl, hinit⟩
  obtain ⟨hust, husub, huinit⟩ := hu
  rw [sequence_of_inCycle h.st, advance_of_remaining hl]
  by_cases hrest : rest = []
  · rw [if_pos hrest, hs]
    exact .inr ⟨rfl, rfl, hlast hrest⟩
  · rw [if_neg hrest]
    refine .inl ⟨hust, huinit, ?_, ?_⟩
    · rw [nextSub_sub, husub]
      exact hmore hrest
    · rw [nextSub_sub, husub]
      exact hrst

/-- A step in flight keeps the invariant of a cycle. -/
theorem InvInCycle.flightStep {s t : State} (h : InvInCycle s) (hstep : FlightStep s t) : InvInCycle t := by
  obtain ⟨hidle, -, hcheck, hfin, -⟩ := St.inCycle_ne h.st
  have hf := hstep.frame
  have hw := hstep.follows hidle
  have hp := hstep.pins (config_wf_iff.1 h.config).1 hidle
  have hst := hw.cycle h.st
  have hinit : s.init = true → t.init = true := fun hi => by
    rcases hw.init with h | ⟨-, h⟩
    · exact h.trans hi
    · exact h
  have hreset : t.rst = restingRst t.st t.sub ∧ (t.st = .hwReset → t.init = false ∧ t.sub.toNat < 8) ∧
      (t.st ≠ .hwReset → t.init = true) := by
    by_cases hs : s.st = .hwReset
    · rcases h.hwResetStep hs hstep with ⟨hq, hi, hn, hr⟩ | ⟨hq, hi, hr⟩
      · simp [hq, hi, hn, hr]
      · simp [hq, hi, hr]
    · have hq : t.st ≠ .hwReset := fun hq => hs (hw.entersHwReset hq)
      refine ⟨?_, fun h => absurd h hq, fun _ => hinit (h.init hs)⟩
      rw [hp.rst hcheck hs, h.rst, restingRst_of_ne hs, restingRst_of_ne hq]
  obtain ⟨hr, hin, hout⟩ := hreset
  exact {
    config := hf.cfg ▸ h.config
    unplaced := hf.placed.trans h.unplaced
    st := hst
    dc := hf.restsAtData h.dc
    rst := hr
    functional := (hw.functional hfin).trans h.functional
    ready := by
      rw [hp.attached hcheck hfin, hf.fue, hf.cfg]
      exact h.ready
    hwReset := hin
    init := hout
    fastRecorded := by
      rw [hf.mode, hf.histValid]
      exact h.fastRecorded
    recordedInit := fun hv => hinit (h.recordedInit (hf.histValid ▸ hv))
    uncounted := by
      rw [hf.histValid, hf.counter]
      exact h.uncounted }

/-! ### A setup in flight keeps the invariant -/

/-- What the registers of a setup in flight keep, if the step goes on in the setup. -/
theorem InvInSetup.of_flight {s t : State} (h : InvInSetup s) (hstep : FlightStep s t)
    (hst : t.st.inSetup = true) (hfin : t.functional = s.functional) (hr : t.rst = .high)
    (hd : setupDevice t.st t.sub t.attached) : InvInSetup t := by
  obtain ⟨hidle, hreset, -⟩ := St.inSetup_ne h.st
  have hf := hstep.frame
  have hi := (hstep.follows hidle).init.resolve_right fun hq => hreset hq.1
  exact {
    config := hf.cfg ▸ h.config
    unplaced := hf.placed.trans h.unplaced
    st := hst
    dc := hf.restsAtData h.dc
    rst := hr
    functional := hfin.trans h.functional
    init := hi.trans h.init
    histValid := hf.histValid.trans h.histValid
    counter := hf.counter.trans h.counter
    accepted := by
      rw [hf.fue, hf.cfg]
      exact h.accepted
    device := hd }

/-- The reader keeps CAL attached (R156). -/
theorem InvInSetup.readerStep {s t : State} (h : InvInSetup s) (hs : s.st.reads = true)
    (hstep : FlightStep s t) : InvInSetup t := by
  have hq : (s.sub = 0 ∧ s.attached = .cal) ∧ s.st ≠ .setupCheck ∧ s.st ≠ .setupFin ∧ s.st ≠ .hwReset := by
    have hd := h.device
    revert hs
    cases hq : s.st <;> rw [hq] at hd <;> simp [St.reads] <;> exact hd
  obtain ⟨⟨hsub, hcal⟩, hcheck, hfin, hreset⟩ := hq
  have hidle := (St.inSetup_ne h.st).1
  have hw := hstep.follows hidle
  have hp := hstep.pins (config_wf_iff.1 h.config).1 hidle
  obtain ⟨ht, hset, hdev⟩ := hw.reader hs hsub
  refine h.of_flight hstep hset (hw.functional hfin) ((hp.rst hcheck hreset).trans h.rst) ?_
  rw [ht, hp.attached hcheck hfin, hcal]
  exact hdev

/-- SetupCheck and SetupFin go down their lists (R158, R168). -/
theorem FlightStep.of_setupList {s t : State} {i : Instr} {rest : List Instr} (h : FlightStep s t)
    (hs : s.st = .setupCheck ∨ s.st = .setupFin) (hr : remaining s = i :: rest) :
    ∃ u, exec i s = .next u ∧ MicroFrame s u ∧ t = if rest = [] then leave s.st u else nextSub u := by
  obtain ⟨u, he, hm, rfl⟩ := h.of_remaining hr
  refine ⟨u, he, hm, ?_⟩
  rw [← advance_of_remaining hr]
  unfold Machine.sequence
  rcases hs with hs | hs <;> rw [hs]

/-- SetupCheck raises the reset line, detaches what is attached and attaches CAL (R158). -/
theorem InvInSetup.setupCheckStep {s t : State} (h : InvInSetup s) (hs : s.st = .setupCheck)
    (hstep : FlightStep s t) : InvInSetup t := by
  have hfin := (hstep.follows (St.inSetup_ne h.st).1).functional (by rw [hs]; decide)
  have hops : remaining s = setupCheckOps s := by unfold remaining; rw [hs]
  have hd := h.device
  rw [hs] at hd
  have attachCal (hr : remaining s = [.attach .cal]) (ha : s.attached = .none) : InvInSetup t := by
    obtain ⟨u, he, -, rfl⟩ := hstep.of_setupList (.inl hs) hr
    simp only [exec, execAttach, ha, if_true] at he
    cases he
    rw [hs] at hstep hfin ⊢
    exact h.of_flight hstep rfl hfin h.rst ⟨rfl, rfl⟩
  rcases hd with ⟨hsub, hcal⟩ | ⟨hsub, hcal⟩ | ⟨hsub, hnone⟩
  · have hr : remaining s = .rstset .high :: (detachAttached s.attached ++ [.attach .cal]) := by
      rw [hops, setupCheckOps, hsub]; rfl
    obtain ⟨u, he, -, rfl⟩ := hstep.of_setupList (.inl hs) hr
    cases he
    rw [if_neg (by simp)] at hstep hfin ⊢
    refine h.of_flight hstep h.st hfin rfl ?_
    simp [hs, hsub, setupDevice, hcal]
  · have hr : remaining s = detachAttached s.attached ++ [.attach .cal] := by
      rw [hops, setupCheckOps, hsub]; rfl
    cases ha : s.attached with
    | none => exact attachCal (by rw [hr, ha]; rfl) ha
    | cal => exact absurd ha hcal
    | wr =>
      rw [ha] at hr
      obtain ⟨u, he, -, rfl⟩ := hstep.of_setupList (.inl hs) hr
      simp only [exec, execDetach, ha, Attached.ofDevice, if_true] at he
      cases he
      refine h.of_flight hstep h.st hfin h.rst ?_
      simp [hs, hsub, setupDevice]
  · exact attachCal (by rw [hops, setupCheckOps, hsub]; rfl) hnone

/-- SetupFin detaches CAL and attaches WR, and then the block is functional (R168). -/
theorem InvInSetup.setupFinStep {s t : State} (h : InvInSetup s) (hs : s.st = .setupFin)
    (hstep : FlightStep s t) : Inv t := by
  have hrem : remaining s = [Instr.detach .cal, .attach .wr].drop s.sub.toNat := by
    unfold remaining; rw [hs]
  have hd := h.device
  rw [hs] at hd
  rcases hd with ⟨hsub, hcal⟩ | ⟨hsub, hnone⟩
  · rw [hsub] at hrem
    obtain ⟨u, he, -, rfl⟩ := hstep.of_setupList (.inr hs) hrem
    simp only [exec, execDetach, hcal, Attached.ofDevice, if_true] at he
    cases he
    refine (h.of_flight hstep h.st rfl h.rst ?_).inv
    simp [hs, hsub, setupDevice]
  · rw [hsub] at hrem
    obtain ⟨u, he, -, rfl⟩ := hstep.of_setupList (.inr hs) hrem
    simp only [exec, execAttach, hnone, if_true] at he
    cases he
    rw [hs]
    exact InvAtRest.inv {
      config := h.config
      unplaced := h.unplaced
      st := rfl
      sub := rfl
      dc := h.dc
      rst := h.rst
      recorded := fun hv => nomatch hv.symm.trans h.histValid
      uncounted := fun _ => h.counter
      functionalReady := fun _ => ⟨rfl, h.accepted⟩
      restDevice := fun hn => nomatch hn }

/-- A step in flight keeps the invariant of a setup, or ends it. -/
theorem InvInSetup.flightStep {s t : State} (h : InvInSetup s) (hstep : FlightStep s t) : Inv t := by
  have hq : s.st = .setupCheck ∨ s.st = .setupFin ∨ s.st.reads = true := by
    have hs := h.st
    revert hs
    cases s.st <;> decide
  rcases hq with hq | hq | hq
  · exact (h.setupCheckStep hq hstep).inv
  · exact h.setupFinStep hq hstep
  · exact (h.readerStep hq hstep).inv

/-- Settles O46: the invariant, taken at rest, in a setup and in a cycle, is kept by each step there. -/
theorem stepKeepsTheInvariant : Obligations.StepKeepsTheInvariant := by
  intro s t h hstep
  cases stepCase_of_step h.unplaced hstep with
  | rest => exact h.withdrawHostcmd
  | setupAccepted hp hc => exact ((h.atRest hp.1).setupStarts hc).inv.withdrawHostcmd
  | setupAborted hp => exact (h.atRest hp.1).setupAborts.inv.withdrawHostcmd
  | updateAccepted hp hf => exact ((h.atRest hp.1).updateStarts hf).inv.withdrawHostcmd
  | forceFull => exact h.forceFull.withdrawHostcmd
  | completion hs => exact ((h.inCycle (by rw [hs]; rfl)).complete hs).inv
  | flight hs hstep =>
    have hq : s.st.inSetup = true ∨ s.st.inCycle = true := by
      revert hs
      cases s.st <;> decide
    rcases hq with hq | hq
    · exact (h.inSetup hq).flightStep hstep
    · exact ((h.inCycle hq).flightStep hstep).inv

/-! ### The frame memories stay canonical -/

theorem FramesCanonical.of_eq {s t : State} (h : FramesCanonical s) (hcfg : t.cfg = s.cfg)
    (hlf : t.inp.lf = s.inp.lf) (hpf : t.pf = s.pf) (hhf : t.hf = s.hf) : FramesCanonical t := by
  constructor
  · rw [hlf]; exact h.lf
  · rw [hpf]; exact h.pf
  · rw [hhf]; exact h.hf
  · rw [hcfg, hpf]; exact h.pfWithin
  · rw [hcfg, hhf]; exact h.hfWithin

theorem FramesCanonical.flight {s t : State} (h : FramesCanonical s) (hf : FlightFrame s t) :
    FramesCanonical t :=
  h.of_eq hf.cfg hf.lf hf.pf hf.hf

/-- UPDATE writes PF whole (R67, R201). -/
theorem FramesCanonical.updateStarts {s : State} (h : FramesCanonical s) : FramesCanonical (updateStarts s) where
  lf := h.lf
  pf := memoryWf_memoryOf _ _
  hf := h.hf
  pfWithin := memoryWithin_memoryOf _ _
  hfWithin := h.hfWithin

/-- The completion step copies PF into HF (R240). -/
theorem FramesCanonical.complete {s : State} (h : FramesCanonical s) : FramesCanonical (complete s) :=
  ⟨h.lf, h.pf, h.pf, h.pfWithin, h.pfWithin⟩

/-- What a host operation can do, wherever it is run (R201, R251 to R253). -/
theorem exec_hostOp_cases {i : Instr} {s t : State} (hi : i.isHostOp = true) (h : exec i s = .next t) :
    t = s ∨ t = setupStarts s ∨ t = setupAborts s ∨ t = updateStarts s ∨ t = { s with counter := 0 } := by
  have hs := idle_of_exec_hostOp hi h
  cases i
  case setup =>
    simp only [exec, execSetup, hs, ne_eq, not_true_eq_false, if_false] at h
    split at h <;> cases h <;> simp
  case update =>
    simp only [exec, execUpdate, hs, ne_eq, not_true_eq_false, if_false] at h
    split at h
    · cases h; simp
    · split at h <;> cases h
      simp
  case forceFull =>
    simp only [exec, execForceFull, hs, ne_eq, not_true_eq_false, if_false] at h
    cases h
    simp [hs]
  all_goals exact absurd hi Bool.false_ne_true

theorem FramesCanonical.exec {i : Instr} {s t : State} (h : FramesCanonical s) (he : exec i s = .next t) :
    FramesCanonical t := by
  cases hi : i.isHostOp
  · exact h.flight (microFrame_exec hi he).flight
  · rcases exec_hostOp_cases hi he with rfl | rfl | rfl | rfl | rfl
    · exact h
    · exact { h with }
    · exact { h with }
    · exact h.updateStarts
    · exact { h with }

theorem FramesCanonical.bookkeep {s : State} (h : FramesCanonical s) : FramesCanonical (bookkeep s) := by
  unfold Machine.bookkeep
  split
  · exact { h with }
  · exact h.complete
  all_goals exact h.flight (sequenceFrame_leave _ _).flight

/-- Settles O47: a placed instruction, the bookkeeping and a fetched instruction each keep it. -/
theorem stepKeepsFramesCanonical : Obligations.StepKeepsFramesCanonical := by
  intro s t h hstep
  cases hp : s.inp.placed with
  | some i =>
    rw [step_of_placed hp] at hstep
    have h' : FramesCanonical (takePlaced s) := { h with }
    exact h'.exec hstep
  | none =>
    obtain ⟨-, ⟨-, rfl⟩ | ⟨i, u, -, he, rfl⟩⟩ := (step_eq_next hp).1 hstep
    · exact h.bookkeep
    · exact (h.exec he).flight (sequenceFrame_sequence s u).flight

/-! ### The writers of each register -/

/-- Settles O52: at rest and at completion the writes are those of the step's own rule; in flight
`FlightFrame`, `Follows` and `PinsFrame` say which state writes which register. -/
theorem registersHaveOnlyTheirWriters : Obligations.RegistersHaveOnlyTheirWriters := by
  intro s t hc hp hstep
  cases stepCase_of_step hp hstep with
  | rest => simp
  | setupAccepted hp => simp [setupStarts, hp]
  | setupAborted hp => simp [setupAborts, hp]
  | updateAccepted hp hf => simp [updateStarts, hp, hf]
  | forceFull hp => simp [hp]
  | completion hs => simp [complete, hs]
  | flight hs h =>
    have hf := h.frame
    have hw := h.follows hs
    have hpin := h.pins hc hs
    refine ⟨fun hn => ?_, fun hn => ?_, fun hn => absurd hf.histValid hn, ?_, fun hn => ?_, fun hn => ?_,
      fun hn => absurd hf.counter hn, fun hn => absurd hf.fue hn, fun hn => ?_, fun hn => ?_, fun hn => ?_,
      fun hn => ?_, fun hn => absurd hf.hf hn⟩
    · exact .inr (not_imp_comm.1 hw.functional hn)
    · exact .inr (hw.init.resolve_left hn).1
    · rintro (hn | hn | hn)
      · exact absurd hf.mode hn
      · exact absurd hf.tcode hn
      · exact absurd hf.pf hn
    · simpa using mt hw.psrBase hn
    · exact not_imp_comm.1 hw.psrTmp0 hn
    · exact not_imp_comm.1 hw.otpBank hn
    · exact or_iff_not_imp_left.2 fun h1 => not_imp_comm.1 (hw.otpSkip h1) hn
    · exact or_iff_not_imp_left.2 fun h1 => not_imp_comm.1 (hpin.rst h1) hn
    · exact or_iff_not_imp_left.2 fun h1 => not_imp_comm.1 (hpin.attached h1) hn

/-! ### The hardware reset -/

/-- Settles O53: at rest only an accepted SETUP clears INIT and only UPDATE enters HwReset; in flight `Follows`
says that neither happens, and how HwReset is left. -/
theorem hardwareResetRunsOncePerLifetime : Obligations.HardwareResetRunsOncePerLifetime := by
  intro s t hp hstep
  have keeps {u : State} (hi : u.init = s.init) {p : Prop} (h1 : s.init = true) (h0 : u.init = false) : p :=
    nomatch (hi.trans h1).symm.trans h0
  have idle (hs : s.st = .idle) {p : Prop} (h : s.st = .hwReset) : p := nomatch hs.symm.trans h
  cases stepCase_of_step hp hstep with
  | rest hs => exact ⟨keeps rfl, fun h hne => absurd h hne, idle hs⟩
  | setupAccepted hp => exact ⟨fun _ _ => ⟨hp, rfl⟩, fun h => (nomatch h), idle hp.1⟩
  | setupAborted hp => exact ⟨keeps rfl, fun h => (nomatch h), idle hp.1⟩
  | updateAccepted hp =>
    refine ⟨keeps rfl, fun h _ => ⟨hp, ?_⟩, idle hp.1⟩
    cases hi : s.init
    · rfl
    · simp [updateStarts, hi] at h
  | forceFull hp => exact ⟨keeps rfl, fun h hne => absurd h hne, idle hp.1⟩
  | completion hs => exact ⟨keeps rfl, fun h => (nomatch h), fun h => nomatch hs.symm.trans h⟩
  | flight hs h =>
    have hw := h.follows hs
    refine ⟨fun h1 h0 => ?_, fun h hne => absurd (hw.entersHwReset h) hne,
      fun h hne => (hw.leavesHwReset h).resolve_left hne⟩
    rcases hw.init with hi | ⟨-, hi⟩
    · exact keeps hi h1 h0
    · exact nomatch hi.symm.trans h0

/-! ### STATUS flags are sticky -/

/-- UPDATE keeps CAL_FAIL and CONFIG_ERR (R26, R201). -/
theorem statusFlag_clearCycleStatus {st : BitVec 4} {k : ErrKind} (h : statusFlag st k = true) :
    statusFlag (clearCycleStatus st) k = true ∨ k = .bus ∨ k = .busyTimeout := by
  cases k
  case bus | busyTimeout => simp
  all_goals
    refine .inl ?_
    revert st
    decide

/-- Settles O55: a step at rest keeps STATUS, or is SETUP or UPDATE; in flight flags are only set. -/
theorem statusFlagsAreSticky : Obligations.StatusFlagsAreSticky := by
  intro s t k hp hstep hk
  cases stepCase_of_step hp hstep with
  | rest => exact .inl hk
  | setupAccepted hp => exact .inr (.inl hp)
  | setupAborted hp => exact .inr (.inl hp)
  | updateAccepted hp =>
    rcases statusFlag_clearCycleStatus hk with h | h
    · exact .inl h
    · exact .inr (.inr ⟨hp, h⟩)
  | forceFull => exact .inl hk
  | completion => exact .inl hk
  | flight _ h => exact .inl (h.frame.flags k hk)

/-! ### What a step runs -/

/-- What is decoded, if anything, is no host operation. -/
def NoHostOp (o : Except DecodeError Instr) : Prop := ∀ i, o = .ok i → i.isHostOp = false

theorem noHostOp_ok {i : Instr} (hi : i.isHostOp = false) : NoHostOp (.ok i) := by
  rintro _ ⟨⟩
  exact hi

theorem noHostOp_error (e : DecodeError) : NoHostOp (.error e) := nofun

theorem NoHostOp.ite {p : Prop} [Decidable p] {i : Instr} {o : Except DecodeError Instr}
    (ho : NoHostOp o) (hi : i.isHostOp = false) : NoHostOp (if p then .ok i else o) := by
  split
  · exact noHostOp_ok hi
  · exact ho

/-- No record is a host operation (R94). -/
theorem noHostOp_decodeRecord (r : BitVec 20) : NoHostOp (decodeRecord r) := by
  unfold decodeRecord
  split
  · exact (noHostOp_error _).ite rfl
  · exact (noHostOp_error _).ite rfl
  · unfold decodeFrameArg
    refine (((NoHostOp.ite ?_ rfl).ite rfl).ite rfl)
    split <;> exact noHostOp_error _
  · exact (noHostOp_error _).ite rfl
  · exact (noHostOp_error _).ite rfl
  · exact noHostOp_ok rfl
  · exact ((noHostOp_error _).ite rfl).ite rfl
  · exact ((noHostOp_error _).ite rfl).ite rfl
  · exact ((noHostOp_error _).ite rfl).ite rfl
  · exact ((((noHostOp_error _).ite rfl).ite rfl).ite rfl).ite rfl
  · exact noHostOp_error _

/-- No panel address byte is a host operation (R100). -/
theorem noHostOp_decodePanel (ad : CmdAddrs) (a : Byte) : NoHostOp (decodePanel ad a) := by
  unfold decodePanel
  iterate 11 refine NoHostOp.ite ?_ rfl
  exact noHostOp_error _

/-- Every host code that decodes is a host operation (R90). -/
theorem isHostOp_of_decodeHost {b : Byte} {i : Instr} (h : decodeHost b = .ok i) : i.isHostOp = true := by
  rcases decodeHost_eq_ok.1 h with ⟨-, rfl⟩ | ⟨-, rfl⟩ | ⟨-, rfl⟩ <;> rfl

/-- The words of the opcode table that name an instruction, and where they are placed (log entry 18): a host code
on HOSTCMD, every other instruction in `placed`. -/
theorem placeWord_of_decodeTableWord {nbits w : Nat} {i : Instr} (h : decodeTableWord nbits w = some i)
    (s : State) :
    (i.isHostOp = true ∧ ∃ b, decodeHost b = .ok i ∧ placeWord nbits w s = placeHostCode b s) ∨
      (i.isHostOp = false ∧ placeWord nbits w s = placeInstr i s) := by
  unfold decodeTableWord at h
  unfold placeWord
  cases hr : readTableWord nbits w with
  | error _ => simp [hr] at h
  | ok e =>
    have hd : decode defaultAddrs e = .ok i := by
      cases hd : decode defaultAddrs e <;> simp_all
    cases e with
    | host b => exact .inl ⟨isHostOp_of_decodeHost hd, b, hd, rfl⟩
    | record r => exact .inr ⟨noHostOp_decodeRecord r i hd, by simp only [hd]⟩
    | panel a => exact .inr ⟨noHostOp_decodePanel _ a i hd, by simp only [hd]⟩

/-- Settles O56: `blockStep` on the instruction fetched, `sequence` at rest, and a word where it is placed. -/
theorem stepRunsTheFetchedInstruction : Obligations.StepRunsTheFetchedInstruction := by
  intro s i
  refine ⟨fun hp hf hr => ?_, fun hs hv hd => ⟨(fetch_idle hs).2 ⟨hv, hd⟩, fun t => ?_⟩, ?_⟩
  · rw [step_of_unplaced hp]
    unfold blockStep
    rw [stepRefusal_eq_none.2 hr, hf]
    rfl
  · unfold Machine.sequence
    rw [hs]
    rfl
  · rintro nbits w u hd rfl
    unfold State.withFetchWord
    rcases placeWord_of_decodeTableWord hd s with ⟨hi, b, hb, hw⟩ | ⟨hi, hw⟩ <;> rw [hw]
    · exact ⟨fun _ => ⟨rfl, rfl, (fetch_idle rfl).2 ⟨rfl, hb⟩⟩, fun hn => (nomatch hn.symm.trans hi)⟩
    · exact ⟨fun hn => (nomatch hn.symm.trans hi), fun _ => rfl⟩

/-! ### What a step does not read -/

/-- `s` with other contents in STATUS and on the three sampled inputs. -/
def withUnread (v : BitVec 4) (temp : Half) (n : Word) (lf : Memory) (s : State) : State :=
  { s with status := v, inp := { s.inp with temp := temp, fullUpdateEvery := n, lf := lf } }

/-- What a relation between two contents of STATUS must meet for the steps of the block to keep it (R26). -/
structure StatusRel (P : BitVec 4 → BitVec 4 → Prop) : Prop where
  raise : ∀ {a b}, P a b → ∀ k, P (setStatus a k) (setStatus b k)
  zero : P 0 0
  clear : ∀ {a b}, P a b → P (clearCycleStatus a) (clearCycleStatus b)

/-- `s'` is `s` but for STATUS, related by `P`, and the sampled inputs. -/
def Unread (P : BitVec 4 → BitVec 4 → Prop) (s s' : State) : Prop :=
  ∃ v temp n lf, s' = withUnread v temp n lf s ∧ P s.status v

/-- Two outcomes of one kind: with next states that are related, or with the same reason. -/
inductive Related (R : State → State → Prop) :
    Host.Outcome State Fault Refusal → Host.Outcome State Fault Refusal → Prop
  | next {t t' : State} (h : R t t') : Related R (.next t) (.next t')
  | fault (r : Fault) : Related R (.fault r) (.fault r)
  | refused (r : Refusal) : Related R (.refused r) (.refused r)

theorem Related.andThen {R : State → State → Prop} {o o' : Host.Outcome State Fault Refusal}
    {f f' : State → Host.Outcome State Fault Refusal} (h : Related R o o')
    (hf : ∀ {t t'}, R t t' → Related R (f t) (f' t')) : Related R (andThen o f) (andThen o' f') := by
  cases h with
  | next h => exact hf h
  | fault r => exact .fault r
  | refused r => exact .refused r

section

variable {P : BitVec 4 → BitVec 4 → Prop} {s s' : State}

/-! #### What reads and writes neither -/

theorem Unread.status (h : Unread P s s') : P s.status s'.status := by
  obtain ⟨v, temp, n, lf, rfl, hv⟩ := h; exact hv

theorem Unread.st_eq (h : Unread P s s') : s'.st = s.st := by
  obtain ⟨v, temp, n, lf, rfl, -⟩ := h; rfl

theorem Unread.attached_eq (h : Unread P s s') : s'.attached = s.attached := by
  obtain ⟨v, temp, n, lf, rfl, -⟩ := h; rfl

theorem Unread.placed_eq (h : Unread P s s') : s'.inp.placed = s.inp.placed := by
  obtain ⟨v, temp, n, lf, rfl, -⟩ := h; rfl

theorem Unread.framePayload_eq (h : Unread P s s') (src : FrameSrc) :
    framePayload s' src = framePayload s src := by
  obtain ⟨v, temp, n, lf, rfl, -⟩ := h
  cases src <;> rfl

theorem Unread.unitOps_eq (h : Unread P s s') (i : Instr) : unitOps s' i = unitOps s i := by
  obtain ⟨v, temp, n, lf, rfl, -⟩ := h
  cases i <;> rfl

theorem Unread.fetch_eq (h : Unread P s s') : fetch s' = fetch s := by
  obtain ⟨v, temp, n, lf, rfl, -⟩ := h; rfl

theorem Unread.stepRefusal_eq (h : Unread P s s') : stepRefusal s' = stepRefusal s := by
  obtain ⟨v, temp, n, lf, rfl, -⟩ := h; rfl

theorem Unread.sequence_eq (h : Unread P s s') (u : State) : sequence s' u = sequence s u := by
  obtain ⟨v, temp, n, lf, rfl, -⟩ := h; rfl

/-- An update that writes neither STATUS nor a sampled input, and reads none, keeps the relation. -/
theorem Unread.map (h : Unread P s s') (f : State → State)
    (hst : ∀ s, (f s).status = s.status := by intros; rfl)
    (hf : ∀ v temp n lf s, f (withUnread v temp n lf s) = withUnread v temp n lf (f s) := by intros; rfl) :
    Unread P (f s) (f s') := by
  obtain ⟨v, temp, n, lf, rfl, hv⟩ := h
  exact ⟨v, temp, n, lf, hf v temp n lf s, by rw [hst]; exact hv⟩

theorem Unread.leave (h : Unread P s s') (q : St) : Unread P (leave q s) (leave q s') := by
  refine h.map _ (fun s => ?_) fun _ _ _ _ s => ?_ <;> cases q <;> rfl

theorem Unread.selectBank (h : Unread P s s') (p : Byte) : Unread P (selectBank p s) (selectBank p s') := by
  refine h.map _ (fun s => ?_) fun v temp n lf s => ?_ <;> by_cases hp : p = s.cfg.otpSentinel <;>
    simp [Machine.selectBank, withUnread, hp]

theorem Unread.skipOne (h : Unread P s s') : Unread P (skipOne s) (skipOne s') := by
  refine h.map _ (fun s => ?_) fun v temp n lf s => ?_ <;> by_cases hz : s.otpSkip - 1 = 0
  · rw [skipOne_of_zero hz]; rfl
  · rw [skipOne_of_ne hz]
  · rw [skipOne_of_zero hz, skipOne_of_zero (s := withUnread v temp n lf s) hz]; rfl
  · rw [skipOne_of_ne hz, skipOne_of_ne (s := withUnread v temp n lf s) hz]; rfl

theorem Unread.bookkeep (h : Unread P s s') : Unread P (bookkeep s) (bookkeep s') := by
  unfold Machine.bookkeep
  rw [h.st_eq]
  split
  · exact h.map withdrawHostcmd
  · exact h.map complete
  all_goals exact h.leave _

/-- Whether a transaction is let through depends on the attached device alone (R184). -/
theorem Unread.requireDevice (h : Unread P s s') {f f' : State → State} (hf : Unread P (f s) (f' s')) :
    Related (Unread P) (requireDevice f s) (requireDevice f' s') := by
  by_cases ha : s.attached = .none
  · rw [requireDevice_of_none ha, requireDevice_of_none (h.attached_eq.trans ha)]
    exact .fault _
  · rw [requireDevice_of_attached ha, requireDevice_of_attached (h.attached_eq ▸ ha)]
    exact .next hf

/-! #### What raises an error -/

variable (hP : StatusRel P)
include hP

theorem Unread.raise (h : Unread P s s') (k : ErrKind) : Unread P (raise k s) (raise k s') := by
  obtain ⟨v, temp, n, lf, rfl, hv⟩ := h
  exact ⟨setStatus v k, temp, n, lf, rfl, hP.raise hv k⟩

theorem Unread.calibrationFails (h : Unread P s s') : Unread P (calibrationFails s) (calibrationFails s') :=
  (h.raise hP .calibration).map fun s => goto .setupFin { s with psrBase := s.cfg.psrDefault }

theorem Unread.afterRead (h : Unread P s s') (st : TxStatus) {good : State → State}
    (hg : Unread P (good s) (good s')) : Unread P (afterRead st good s) (afterRead st good s') := by
  cases st
  · exact hg
  · exact (h.raise hP .bus).calibrationFails hP

theorem Unread.commit (h : Unread P s s') (d : Byte) : Unread P (commit d s) (commit d s') := by
  obtain ⟨v, temp, n, lf, rfl, hv⟩ := id h
  cases hp : s.cfg.plausible ⟨s.psrTmp0, d⟩
  · rw [commit_of_implausible hp, commit_of_implausible (s := withUnread v temp n lf s) hp]
    exact h.calibrationFails hP
  · rw [commit_of_plausible hp, commit_of_plausible (s := withUnread v temp n lf s) hp]
    exact ⟨v, temp, n, lf, rfl, hv⟩

theorem Unread.sequence {u u' : State} (h : Unread P u u') (s : State) :
    Unread P (sequence s u) (sequence s u') := by
  unfold Machine.sequence
  split
  · exact h.map withdrawHostcmd
  · split
    · exact h.map (goto .otpDummy)
    · exact h.calibrationFails hP
  · exact h.afterRead hP _ (h.map (goto .otpProbe))
  · exact h.afterRead hP _ ((h.selectBank _).map (goto .otpSkip))
  · exact h.afterRead hP _ h.skipOne
  · exact h.afterRead hP _ (h.map fun u => goto .otpData1 { u with psrTmp0 := nextByte s })
  · exact h.afterRead hP _ (h.commit hP _)
  all_goals
    unfold advance
    split
    · exact h.leave _
    · exact h.map nextSub

/-- A transaction draws the same status on both sides (R176). -/
theorem Unread.sendTransaction (h : Unread P s s') (l : DcLevel) (ev : DcLevel → TxStatus → Event) :
    Unread P (sendTransaction l ev s) (sendTransaction l ev s') := by
  obtain ⟨v, temp, n, lf, rfl, hv⟩ := h
  cases hs : nextStatus s
  · rw [sendTransaction_of_ok hs, sendTransaction_of_ok (s := withUnread v temp n lf s) hs]
    exact ⟨v, temp, n, lf, rfl, hv⟩
  · rw [sendTransaction_of_err hs, sendTransaction_of_err (s := withUnread v temp n lf s) hs]
    exact ⟨_, temp, n, lf, rfl, hP.raise hv .bus⟩

/-- A wait has the same outcome on both sides (R185). -/
theorem Unread.waitBusy (h : Unread P s s') : Unread P (waitBusy s) (waitBusy s') := by
  obtain ⟨v, temp, n, lf, rfl, hv⟩ := h
  cases hb : s.inp.busy
  · rw [waitBusy_of_ready hb, waitBusy_of_ready (s := withUnread v temp n lf s) hb]
    exact ⟨v, temp, n, lf, rfl, hv⟩
  · cases ho : nextOutcome s
    · rw [waitBusy_of_readySeen hb ho, waitBusy_of_readySeen (s := withUnread v temp n lf s) hb ho]
      exact ⟨v, temp, n, lf, rfl, hv⟩
    · rw [waitBusy_of_timeout hb ho, waitBusy_of_timeout (s := withUnread v temp n lf s) hb ho]
      exact ⟨_, temp, n, lf, rfl, hP.raise hv .busyTimeout⟩

/-! #### Instructions -/

theorem Unread.exec_microOp (h : Unread P s s') {i : Instr} (hi : (i.isMicroOp || i.isErrEvent) = true) :
    Related (Unread P) (exec i s) (exec i s') := by
  cases i
  case cmd a => exact h.requireDevice (h.sendTransaction hP _ _)
  case dat b =>
    exact Related.andThen (f := sendData []) (h.requireDevice (h.sendTransaction hP _ _)) Related.next
  case bulk src =>
    refine h.requireDevice (f' := Machine.sendTransaction .data fun dc st => .bulk dc (framePayload s' src) st) ?_
    rw [h.framePayload_eq]
    exact h.sendTransaction hP _ _
  case rd => exact h.requireDevice (h.map readTransaction)
  case bwait => exact .next (h.waitBusy hP)
  case delay t => exact .next (h.map (emit (.delay t)))
  case rstset l => exact .next (h.map fun s => emit (.rstset l) { s with rst := l })
  case attach d =>
    simp only [exec, execAttach, h.attached_eq]
    split
    · exact .next (h.map fun s => emit (.attach d) { s with attached := Attached.ofDevice d })
    · exact .fault _
  case detach d =>
    simp only [exec, execDetach, h.attached_eq]
    split
    · exact .next (h.map fun s => emit (.detach d) { s with attached := .none })
    · exact .fault _
  case err k => exact .next (h.raise hP k)
  all_goals exact absurd hi Bool.false_ne_true

theorem Unread.runInstrs {l : List Instr} (hl : ∀ i ∈ l, (i.isMicroOp || i.isErrEvent) = true)
    (h : Unread P s s') : Related (Unread P) (runInstrs l s) (runInstrs l s') := by
  induction l generalizing s s' with
  | nil => exact .next h
  | cons i l ih =>
    exact (h.exec_microOp hP (hl i (by simp))).andThen fun h => ih (fun j hj => hl j (by simp [hj])) h

/-- Everything that is not a host operation: a panel command is the micro-operations of its unit. -/
theorem Unread.exec_of_not_hostOp (h : Unread P s s') {i : Instr} (hi : i.isHostOp = false) :
    Related (Unread P) (exec i s) (exec i s') := by
  by_cases hp : i.isPanelCommand = true
  · rw [exec_panelCommand hp, exec_panelCommand hp, h.unitOps_eq]
    refine h.runInstrs hP fun j hj => ?_
    rcases mem_unitOps hj with ⟨a, rfl⟩ | ⟨b, rfl⟩ | ⟨src, rfl⟩ <;> rfl
  · refine h.exec_microOp hP ?_
    cases i <;> simp_all [Instr.isHostOp, Instr.isPanelCommand, Instr.isMicroOp, Instr.isErrEvent]

/-- A host operation reads the sampled inputs, but no STATUS (R26, R201, R251 to R253). -/
theorem related_exec_hostOp {v : BitVec 4} (hv : P s.status v) {i : Instr} (hi : i.isHostOp = true) :
    Related (Unread P) (exec i s) (exec i { s with status := v }) := by
  have same (t : State) (w : BitVec 4) (h : P t.status w) : Unread P t { t with status := w } :=
    ⟨w, t.inp.temp, t.inp.fullUpdateEvery, t.inp.lf, rfl, h⟩
  cases i
  case setup =>
    simp only [exec, execSetup]
    split
    · exact .refused _
    · split
      · exact .next (same (setupStarts s) 0 hP.zero)
      · exact .next (same (setupAborts s) _ (hP.raise hP.zero .configuration))
  case update =>
    simp only [exec, execUpdate]
    split
    · exact .refused _
    · split
      · exact .next (same s v hv)
      · split
        · exact .next (same (updateStarts s) _ (hP.clear hv))
        · exact .refused _
  case forceFull =>
    simp only [exec, execForceFull]
    split
    · exact .refused _
    · exact .next (same { s with counter := 0 } v hv)
  all_goals exact absurd hi Bool.false_ne_true

omit hP in
/-- In flight a host operation is refused (R93). -/
theorem exec_hostOp_of_inFlight {i : Instr} (hi : i.isHostOp = true) (hs : s.st ≠ .idle) :
    exec i s = .refused .hostOperationInFlight := by
  cases i
  case setup | update | forceFull => exact if_pos hs
  all_goals exact absurd hi Bool.false_ne_true

/-- Where an instruction runs on two states that differ in STATUS, and in flight in the sampled inputs too. -/
theorem Unread.exec (h : Unread P s s') (hs : s.st ≠ .idle ∨ s' = { s with status := s'.status }) (i : Instr) :
    Related (Unread P) (exec i s) (exec i s') := by
  cases hi : i.isHostOp
  · exact h.exec_of_not_hostOp hP hi
  · rcases hs with hs | hs
    · rw [exec_hostOp_of_inFlight hi hs, exec_hostOp_of_inFlight hi (h.st_eq ▸ hs)]
      exact .refused _
    · rw [hs]
      exact related_exec_hostOp hP h.status hi

/-- The steps of two such states: what is placed or fetched, and whether it is refused, is the same. -/
theorem Unread.step (h : Unread P s s') (hs : s.st ≠ .idle ∨ s' = { s with status := s'.status }) :
    Related (Unread P) (step s) (step s') := by
  cases hp : s.inp.placed with
  | some i =>
    rw [step_of_placed hp, step_of_placed (h.placed_eq.trans hp)]
    exact (h.map takePlaced).exec hP (hs.imp id fun hs => congrArg takePlaced hs) i
  | none =>
    rw [step_of_unplaced hp, step_of_unplaced (h.placed_eq.trans hp)]
    unfold blockStep
    rw [h.stepRefusal_eq, h.fetch_eq]
    cases stepRefusal s with
    | some r => exact .refused r
    | none =>
      cases fetch s with
      | none => exact .next h.bookkeep
      | some i =>
        refine (h.exec hP hs i).andThen fun hu => .next ?_
        rw [h.sequence_eq]
        exact hu.sequence hP s

end

/-- Settles O50: the steps of the two states are related, STATUS by nothing, and no step writes an input that it
samples. -/
theorem statusIsObservationOnly : Obligations.StatusIsObservationOnly := by
  intro s v
  have hP : StatusRel fun _ _ => True := ⟨fun _ _ => trivial, trivial, fun _ => trivial⟩
  have h : Unread (fun _ _ => True) s { s with status := v } :=
    ⟨v, s.inp.temp, s.inp.fullUpdateEvery, s.inp.lf, rfl, trivial⟩
  have hr := h.step hP (.inr rfl)
  cases hs : step s <;> cases hs' : step { s with status := v } <;> rw [hs, hs'] at hr <;> cases hr
  case next.next.next t t' h =>
    have hk := inputsKept_step hs
    have hk' := inputsKept_step hs'
    obtain ⟨w, temp, n, lf, rfl, -⟩ := h
    obtain rfl : temp = t.inp.temp := hk'.temp.trans hk.temp.symm
    obtain rfl : n = t.inp.fullUpdateEvery := hk'.fullUpdateEvery.trans hk.fullUpdateEvery.symm
    obtain rfl : lf = t.inp.lf := hk'.lf.trans hk.lf.symm
    rfl
  all_goals rfl

/-- Settles O51: the steps of the two states are related, STATUS by equality, and no step writes an input that
it samples. -/
theorem inputsAreSampledAtAcceptanceOnly : Obligations.InputsAreSampledAtAcceptanceOnly := by
  intro s temp n lf hidle
  have hP : StatusRel Eq := ⟨fun h _ => h ▸ rfl, rfl, fun h => h ▸ rfl⟩
  have h : Unread Eq s (withUnread s.status temp n lf s) := ⟨s.status, temp, n, lf, rfl, rfl⟩
  have hr := h.step hP (.inl hidle)
  show step (withUnread s.status temp n lf s) = _
  cases hs : step s <;> cases hs' : step (withUnread s.status temp n lf s) <;> rw [hs, hs'] at hr <;> cases hr
  case next.next.next t t' h =>
    have hk := inputsKept_step hs'
    obtain ⟨w, temp', n', lf', rfl, rfl⟩ := h
    obtain rfl : temp' = temp := hk.temp
    obtain rfl : n' = n := hk.fullUpdateEvery
    obtain rfl : lf' = lf := hk.lf
    rfl
  all_goals rfl

end Sys2Proof.Machine

/-! PROOFS. Family 20_memory: the canonical form of a frame memory is unique (R60, log entry 33).  The first
listed address of a canonical memory is the least one that does not read as unlisted, so what the memory
reads as fixes the first entry, and then in turn what the rest reads as. -/

namespace Sys2Proof.Machine

theorem readByte_cons_self (k : Nat) (v : Byte) (m : Memory) : readByte ((k, v) :: m) k = v := by
  simp [readByte]

/-- An address that does not read as unlisted is at or above the first listed one. -/
theorem firstAddress_le {k a : Nat} {v : Byte} {m : Memory} (h : memoryWf ((k, v) :: m) = true)
    (ha : readByte ((k, v) :: m) a ≠ unlistedByte) : k ≤ a := by
  obtain ⟨-, habove, -⟩ := memoryWf_cons.1 h
  by_contra hlt
  have hall : allAbove a ((k, v) :: m) = true :=
    allAbove_cons.2 ⟨not_le.1 hlt, allAbove_mono habove (le_of_not_ge hlt)⟩
  exact ha (readByte_of_allAbove hall le_rfl)

/-- A canonical memory that reads as unlisted everywhere lists nothing. -/
theorem eq_nil_of_readByte_unlisted {m : Memory} (h : memoryWf m = true)
    (hread : ∀ a, readByte m a = unlistedByte) : m = [] := by
  cases m with
  | nil => rfl
  | cons c m =>
    obtain ⟨k, v⟩ := c
    obtain ⟨hv, -, -⟩ := memoryWf_cons.1 h
    exact absurd ((readByte_cons_self k v m).symm.trans (hread k)) hv

/-- Canonical memories that read the same start at the same address. -/
theorem firstAddress_eq {k k' : Nat} {v v' : Byte} {m m' : Memory} (h : memoryWf ((k, v) :: m) = true)
    (h' : memoryWf ((k', v') :: m') = true)
    (hread : ∀ a, readByte ((k, v) :: m) a = readByte ((k', v') :: m') a) : k = k' := by
  obtain ⟨hv, -, -⟩ := memoryWf_cons.1 h
  obtain ⟨hv', -, -⟩ := memoryWf_cons.1 h'
  refine le_antisymm (firstAddress_le h ?_) (firstAddress_le h' ?_)
  · rwa [hread, readByte_cons_self]
  · rwa [← hread, readByte_cons_self]

/-- What a canonical memory reads as, the first entry taken off, is what its rest reads as. -/
theorem readByte_rest {k : Nat} {v : Byte} {m : Memory} (h : memoryWf ((k, v) :: m) = true) (a : Nat) :
    readByte m a = if k = a then unlistedByte else readByte ((k, v) :: m) a := by
  obtain ⟨-, habove, -⟩ := memoryWf_cons.1 h
  split_ifs with hka
  · exact readByte_of_allAbove habove hka.ge
  · simp [readByte, hka]

/-- Settles O30: by induction on the list, the first address, its byte and what the rest reads as being fixed
by what the memory reads as. -/
theorem equalReadingMemoriesAreEqual : Obligations.EqualReadingMemoriesAreEqual := by
  intro m
  induction m with
  | nil => exact fun m' _ h' hread => (eq_nil_of_readByte_unlisted h' fun a => (hread a).symm).symm
  | cons c m ih =>
    intro m' h h' hread
    cases m' with
    | nil => exact eq_nil_of_readByte_unlisted h hread
    | cons c' m' =>
      obtain ⟨k, v⟩ := c
      obtain ⟨k', v'⟩ := c'
      obtain rfl : k = k' := firstAddress_eq h h' hread
      obtain rfl : v = v' := by simpa only [readByte_cons_self] using hread k
      obtain ⟨-, -, hwf⟩ := memoryWf_cons.1 h
      obtain ⟨-, -, hwf'⟩ := memoryWf_cons.1 h'
      have hrest : ∀ a, readByte m a = readByte m' a := fun a => by
        rw [readByte_rest h, readByte_rest h', hread]
      rw [ih m' hwf hwf' hrest]

end Sys2Proof.Machine

/-! PROOFS. Family 30_encoding: the decoder inverts the encoder, format by format (R90, R94, R100); what each panel
command puts on the bus (R96 to R108), and the states that send theirs twice (R107); the host codes that are ignored
(R92) or refused (R93). -/

namespace Sys2Proof

/-! ### Host codes and records -/

/-- A host code names the operation whose word it is, and no other instruction (R90, R92). -/
theorem decodeHost_eq_ok_iff_encode (ad : CmdAddrs) {b : Byte} {i : Instr} :
    decodeHost b = .ok i ↔ encode ad i = .host b := by
  rw [Machine.decodeHost_eq_ok]
  cases i <;> simp [encode, mkRecord, eq_comm]

/-- A byte argument (R94, kinds 0 and 1). -/
theorem decodeByteArg_eq_ok {r : BitVec 20} {mk : Byte → Instr} {i : Instr} :
    decodeByteArg r mk = .ok i ↔ ∃ b : Byte, recordArg r = b.setWidth 16 ∧ mk b = i := by
  unfold decodeByteArg
  split_ifs with h
  · constructor
    · rintro ⟨⟩
      exact ⟨_, (setWidth_setWidth_of_lt h).symm, rfl⟩
    · rintro ⟨b, hb, rfl⟩
      rw [hb, BitVec.setWidth_setWidth_of_le b (by decide), BitVec.setWidth_eq]
  · refine iff_of_false nofun ?_
    rintro ⟨b, hb, -⟩
    rw [hb, BitVec.toNat_setWidth] at h
    have := b.isLt
    omega

/-- No argument (R94, kinds 3 and 4). -/
theorem decodeNoArg_eq_ok {r : BitVec 20} {i j : Instr} :
    decodeNoArg r j = .ok i ↔ recordArg r = 0 ∧ j = i := by
  unfold decodeNoArg
  split_ifs with h
  · simp [h]
  · simp only [h, false_and]

/-- A one-bit argument (R94, kinds 6, 7 and 8). -/
theorem decodeBitArg_eq_ok {r : BitVec 20} {zero one i : Instr} :
    decodeBitArg r zero one = .ok i ↔ (recordArg r = 0 ∧ zero = i) ∨ (recordArg r = 1 ∧ one = i) := by
  unfold decodeBitArg
  split_ifs with h0 h1
  · simp [h0]
  · simp [h1]
  · simp only [h0, h1, false_and, or_false]

/-- A level argument (R94, kind 6). -/
theorem decodeLevelArg_eq_ok {r : BitVec 20} {mk : Level → Instr} {i : Instr} :
    decodeBitArg r (mk .low) (mk .high) = .ok i ↔ ∃ l, recordArg r = l.bit ∧ mk l = i := by
  rw [decodeBitArg_eq_ok]
  constructor
  · rintro (h | h)
    exacts [⟨.low, h⟩, ⟨.high, h⟩]
  · rintro ⟨_ | _, h⟩
    exacts [.inl h, .inr h]

/-- A device argument (R94, kinds 7 and 8). -/
theorem decodeDeviceArg_eq_ok {r : BitVec 20} {mk : Device → Instr} {i : Instr} :
    decodeBitArg r (mk .cal) (mk .wr) = .ok i ↔ ∃ d, recordArg r = d.bit ∧ mk d = i := by
  rw [decodeBitArg_eq_ok]
  constructor
  · rintro (h | h)
    exacts [⟨.cal, h⟩, ⟨.wr, h⟩]
  · rintro ⟨_ | _, h⟩
    exacts [.inl h, .inr h]

/-- A frame source (R94, kind 2). -/
theorem decodeFrameArg_eq_ok {r : BitVec 20} {i : Instr} :
    decodeFrameArg r = .ok i ↔ ∃ src, recordArg r = src.code ∧ .bulk src = i := by
  constructor
  · intro h
    unfold decodeFrameArg at h
    split_ifs at h with h0 h1 h2 <;> cases h
    exacts [⟨.pf, h0, rfl⟩, ⟨.hf, h1, rfl⟩, ⟨.zf, h2, rfl⟩]
  · rintro ⟨src, hs, rfl⟩
    unfold decodeFrameArg
    rw [hs]
    cases src <;> rfl

/-- An error kind (R94, R270). -/
theorem decodeErrArg_eq_ok {r : BitVec 20} {i : Instr} :
    decodeErrArg r = .ok i ↔ ∃ k, recordArg r = k.code ∧ .err k = i := by
  constructor
  · intro h
    unfold decodeErrArg at h
    split_ifs at h with h0 h1 h2 h3 <;> cases h
    exacts [⟨.bus, h0, rfl⟩, ⟨.busyTimeout, h1, rfl⟩, ⟨.calibration, h2, rfl⟩, ⟨.configuration, h3, rfl⟩]
  · rintro ⟨k, hk, rfl⟩
    unfold decodeErrArg
    rw [hk]
    cases k <;> rfl

/-- A record of kind `k` and argument `a` is the word built from the two. -/
theorem mkRecord_eq {r : BitVec 20} {k : BitVec 4} {a : Half} (hk : (recordKind r).toNat = k.toNat)
    (ha : recordArg r = a) : mkRecord k a = .record r := by
  rw [← BitVec.eq_of_toNat_eq hk, ← ha]
  exact congrArg Encoded.record (recordKind_append_recordArg r)

/-- What a record decodes to has that record as its word: each kind reads its argument in full (R94). -/
theorem encode_of_decodeRecord (ad : CmdAddrs) {r : BitVec 20} {i : Instr} (h : decodeRecord r = .ok i) :
    encode ad i = .record r := by
  unfold decodeRecord at h
  split at h <;> rename_i hk
  case h_1 | h_2 =>
    obtain ⟨b, ha, rfl⟩ := decodeByteArg_eq_ok.1 h
    exact mkRecord_eq hk ha
  case h_3 =>
    obtain ⟨src, ha, rfl⟩ := decodeFrameArg_eq_ok.1 h
    exact mkRecord_eq hk ha
  case h_4 | h_5 =>
    obtain ⟨ha, rfl⟩ := decodeNoArg_eq_ok.1 h
    exact mkRecord_eq hk ha
  case h_6 =>
    cases h
    exact mkRecord_eq hk rfl
  case h_7 =>
    obtain ⟨l, ha, rfl⟩ := decodeLevelArg_eq_ok.1 h
    exact mkRecord_eq hk ha
  case h_8 | h_9 =>
    obtain ⟨d, ha, rfl⟩ := decodeDeviceArg_eq_ok.1 h
    exact mkRecord_eq hk ha
  case h_10 =>
    obtain ⟨k, ha, rfl⟩ := decodeErrArg_eq_ok.1 h
    exact mkRecord_eq hk ha
  case h_11 => cases h

/-- The record of an instruction decodes to it, whatever its operand (R94). -/
theorem decodeRecord_of_encode (ad : CmdAddrs) {r : BitVec 20} {i : Instr} (h : encode ad i = .record r) :
    decodeRecord r = .ok i := by
  cases i <;> cases h
  all_goals
    unfold decodeRecord
    rw [recordKind_append]
  case cmd a | dat a => exact decodeByteArg_eq_ok.2 ⟨a, recordArg_append _ _, rfl⟩
  case bulk src => exact decodeFrameArg_eq_ok.2 ⟨src, recordArg_append _ _, rfl⟩
  case rd | bwait => exact decodeNoArg_eq_ok.2 ⟨recordArg_append _ _, rfl⟩
  case delay t => exact congrArg (fun a => Except.ok (Instr.delay a)) (recordArg_append _ t)
  case rstset l => exact decodeLevelArg_eq_ok.2 ⟨l, recordArg_append _ _, rfl⟩
  case attach d | detach d => exact decodeDeviceArg_eq_ok.2 ⟨d, recordArg_append _ _, rfl⟩
  case err k => exact decodeErrArg_eq_ok.2 ⟨k, recordArg_append _ _, rfl⟩

/-! ### Panel commands -/

/-- The address byte of an instruction is its word (R100). -/
theorem addressOf_eq_some_iff_encode {ad : CmdAddrs} {i : Instr} {a : Byte} :
    ad.addressOf i = some a ↔ encode ad i = .panel a := by
  cases i <;> simp [CmdAddrs.addressOf, encode, mkRecord]

/-- An instruction with an address byte is a row of R100's table. -/
theorem mem_panelCommands_of_addressOf {ad : CmdAddrs} {i : Instr} {a : Byte} (h : ad.addressOf i = some a) :
    i ∈ panelCommands := by
  cases i <;> first | cases h; done | decide

/-- The outcome of a search in R100's table, written as the decoders give it. -/
theorem elim_find?_cons {p : Instr → Bool} {i : Instr} {l : List Instr} {o : Except DecodeError Instr} :
    ((i :: l).find? p).elim o .ok = if p i then .ok i else (l.find? p).elim o .ok := by
  cases h : p i <;> simp [h]

/-- The panel decoder takes the first row of R100's table that has the address byte. -/
theorem decodePanel_eq_find? (ad : CmdAddrs) (a : Byte) :
    decodePanel ad a =
      (panelCommands.find? fun i => ad.addressOf i == some a).elim (.error (.unknownAddress a)) .ok := by
  simp only [decodePanel, panelCommands, elim_find?_cons, CmdAddrs.addressOf, beq_iff_eq, Option.some.injEq,
    eq_comm (b := a), List.find?_nil, Option.elim_none]

/-- The bus-trace decoder takes the first row of R100's table that has the address byte and the payload. -/
theorem decodeUnit_eq_find? (c : Config) (n : Nat) (a : Byte) (payload : List Byte) :
    decodeUnit c n a payload =
      (panelCommands.find? fun i => c.addrs.addressOf i == some a && payloadFits c n payload i).elim
        (.error (.unknownAddress a)) .ok := by
  unfold decodeUnit
  split <;> rename_i h <;> rw [h] <;> rfl

/-- A search finds `i` where nothing that stands before `i` passes. -/
theorem find?_eq_some_of_first {p : Instr → Bool} {i : Instr} {l : List Instr} (hi : i ∈ l) (hp : p i = true)
    (h : ∀ j ∈ l.takeWhile (fun j => j ≠ i), p j = false) : l.find? p = some i := by
  induction l with
  | nil => cases hi
  | cons j l ih =>
    by_cases hj : j = i
    · rw [hj, List.find?_cons_of_pos hp]
    · rw [List.takeWhile_cons_of_pos (by simpa using hj)] at h
      rw [List.find?_cons_of_neg (by simp [h j List.mem_cons_self])]
      exact ih ((List.mem_cons.1 hi).resolve_left (Ne.symm hj)) fun k hk => h k (List.mem_cons_of_mem _ hk)

/-- The word of a panel command decodes to it where no earlier row has its address byte (R100, R112). -/
theorem decodePanel_of_encode {ad : CmdAddrs} {i : Instr} {a : Byte} (h : encode ad i = .panel a)
    (hw : i.addressUnambiguous ad = true) : decodePanel ad a = .ok i := by
  have ha := addressOf_eq_some_iff_encode.2 h
  rw [decodePanel_eq_find?, find?_eq_some_of_first (mem_panelCommands_of_addressOf ha) (by simp [ha])]
  · rfl
  · intro j hj
    have hne := List.all_eq_true.1 hw j hj
    rw [ha] at hne
    simpa using hne

/-- What an address byte decodes to has that byte (R100). -/
theorem encode_of_decodePanel {ad : CmdAddrs} {i : Instr} {a : Byte} (h : decodePanel ad a = .ok i) :
    encode ad i = .panel a := by
  rw [decodePanel_eq_find?] at h
  cases hf : panelCommands.find? fun i => ad.addressOf i == some a with
  | none => simp [hf] at h
  | some j =>
    obtain rfl : j = i := by simpa [hf] using h
    exact addressOf_eq_some_iff_encode.1 (by simpa using List.find?_some hf)

/-! ### The decoder and the encoder -/

/-- Settles O57: format by format.  A host code and a record name their instruction by themselves; a panel address
byte names the first row that has it, which for a well-formed command is its own. -/
theorem decodeOfEncode : Obligations.DecodeOfEncode := by
  intro ad i hw
  cases he : encode ad i with
  | host b => exact (decodeHost_eq_ok_iff_encode ad).2 he
  | record r => exact decodeRecord_of_encode ad he
  | panel a =>
    have hp : i.isPanelCommand = true := by
      cases i <;> first | rfl | cases he
    refine decodePanel_of_encode he ?_
    simpa [Instr.wf, hp] using hw

/-- Settles O58: format by format, no decoder ignoring a bit of its word. -/
theorem encodeOfDecode : Obligations.EncodeOfDecode := by
  intro ad w i h
  cases w with
  | host b => exact (decodeHost_eq_ok_iff_encode ad).1 h
  | record r => exact encode_of_decodeRecord ad h
  | panel a => exact encode_of_decodePanel h

/-- Settles O59: each word is its instruction's, and the reserved source is none. -/
theorem wordsDecodeAsTheSpecWritesThem : Obligations.WordsDecodeAsTheSpecWritesThem := by
  unfold Obligations.WordsDecodeAsTheSpecWritesThem
  and_intros <;> rfl

/-! ### Units on the bus -/

/-- Under the default address bytes only BORDER and VCOM share one (log entry 3). -/
theorem eq_or_border_vcom_of_addressOf_eq : ∀ i ∈ panelCommands, ∀ j ∈ panelCommands,
    defaultAddrs.addressOf i = defaultAddrs.addressOf j →
      i = j ∨ (i = .border ∧ j = .vcom) ∨ (i = .vcom ∧ j = .border) := by
  decide

/-- No payload fits both BORDER and VCOM when their constants differ (R104, R105). -/
theorem not_payloadFits_vcom_of_border {c : Config} {n : Nat} {payload : List Byte}
    (hc : c.borderValue ≠ c.vcomValue) (hb : payloadFits c n payload .border = true) :
    ¬ payloadFits c n payload .vcom = true := by
  obtain rfl : payload = [c.borderValue] := by simpa [payloadFits] using hb
  simpa [payloadFits] using hc

/-- Under the default address bytes an address byte and a payload fit one panel command at most (R96, R112). -/
theorem eq_of_unitFits {c : Config} {n : Nat} {i j : Instr} {a : Byte} {payload : List Byte}
    (hc : c.borderValue ≠ c.vcomValue)
    (hi : defaultAddrs.addressOf i = some a) (hpi : payloadFits c n payload i = true)
    (hj : defaultAddrs.addressOf j = some a) (hpj : payloadFits c n payload j = true) : j = i := by
  rcases eq_or_border_vcom_of_addressOf_eq j (mem_panelCommands_of_addressOf hj) i
    (mem_panelCommands_of_addressOf hi) (hj.trans hi.symm) with h | ⟨rfl, rfl⟩ | ⟨rfl, rfl⟩
  · exact h
  · exact absurd hpi (not_payloadFits_vcom_of_border hc hpj)
  · exact absurd hpj (not_payloadFits_vcom_of_border hc hpi)

/-- Settles O60: the command is a row of the table that fits, and the only one. -/
theorem busUnitsDecodeToTheirCommand : Obligations.BusUnitsDecodeToTheirCommand := by
  intro c n i a payload hd hc ha hp
  rw [decodeUnit_eq_find?, hd,
    find?_eq_some_of_first (mem_panelCommands_of_addressOf ha) (by simp [ha, hp])]
  · rfl
  · intro j hj
    by_contra hf
    obtain ⟨haj, hpj⟩ : defaultAddrs.addressOf j = some a ∧ payloadFits c n payload j = true := by
      simpa using hf
    have hne : j ≠ i := by simpa using List.mem_takeWhile_imp hj
    exact hne (eq_of_unitFits hc ha hp haj hpj)

end Sys2Proof

namespace Sys2Proof.Machine

/-! ### What a panel command sends -/

/-- A command byte and its data bytes (R96). -/
theorem sends_command_data (a : Byte) {bytes : List Byte} (hne : bytes ≠ []) {s : State}
    (hd : s.attached ≠ .none) :
    Sends (evCmd a :: bytes.map evDat) s (andThen (sendCommand a s) (sendData bytes)) :=
  sends_andThen hd (sends_sendCommand a hd) fun _ _ hu => sends_sendData hne hu

/-- A command byte and its bulk frame (R96, R106). -/
theorem sends_command_frame (a : Byte) (src : FrameSrc) {s : State} (hd : s.attached ≠ .none) :
    Sends [evCmd a, evBulk (framePayload s src)] s (andThen (sendCommand a s) (sendFrame src)) :=
  sends_andThen hd (sends_sendCommand a hd) fun _ hf hu => framePayload_eq hf src ▸ sends_sendFrame src hu

/-- Settles O11: a command byte with one data byte, or alone. -/
theorem shortCommandsSendTheirPayload : Obligations.ShortCommandsSendTheirPayload := by
  intro s hd p hp
  refine ⟨?_, fun h => ⟨h.tsetEnValue, h.borderValue, h.vcomValue⟩⟩
  have data (a b : Byte) := sends_command_data a (bytes := [b]) (by simp) hd
  simp only [List.mem_cons, List.not_mem_nil, or_false] at hp
  rcases hp with rfl | rfl | rfl | rfl | rfl
  case inr.inr.inr.inr => exact sends_sendCommand _ hd
  all_goals exact data _ _

/-- Settles O12: a command byte with the two bytes of PSR_TX, which `psrTx_bytes` gives for each mode. -/
theorem psrSendsTheSettingsOfTheMode : Obligations.PsrSendsTheSettingsOfTheMode := by
  intro s hd
  have hsends : Sends [evCmd s.cfg.addrs.psr, evDat (psrTx s).byte0, evDat (psrTx s).byte1] s (exec .psr s) :=
    sends_command_data _ (by simp) hd
  have hbytes := psrTx_bytes s
  refine ⟨fun h => ⟨h.psr0Fast, h.psr1Fast⟩, fun hm => ?_, fun hm => ?_⟩
  all_goals
    rw [hm] at hbytes
    obtain ⟨h0, h1⟩ := Prod.mk.inj hbytes
    rw [h0, h1] at hsends
    exact hsends

/-- The bulk payload of DTM2, written out (R106, R241). -/
theorem framePayload_frame2Src (s : State) : framePayload s (frame2Src s) =
    if s.mode = .fast ∧ s.histValid = true then frameOf s.cfg.frameBytes s.hf else zeroFrame s.cfg := by
  rw [frame2Src_eq]
  split
  · rfl
  · exact frameOf_nil _

/-- Settles O13: a command byte with the frame of the command's source. -/
theorem frameCommandsSendTheirFrames : Obligations.FrameCommandsSendTheirFrames := by
  intro s hd
  refine ⟨sends_command_frame _ .pf hd, ?_⟩
  rw [← framePayload_frame2Src]
  exact sends_command_frame _ _ hd

/-! ### The states that send their command twice -/

/-- The frame of transactions does not speak of the pc. -/
theorem TransactionFrame.withPc {s t : State} (h : TransactionFrame s t) (q : St) (n : Half) :
    TransactionFrame { s with st := q, sub := n } { t with st := q, sub := n } :=
  ⟨by rw [h.1], h.2⟩

theorem hasStateList_of_inCycle {q : St} (h : q.inCycle = true) : hasStateList q = true := by
  cases q <;> first | rfl | cases h

/-- The step of a cycle state that has a command byte to run: one transaction, whatever becomes of it, and what
follows it in the list (R24, R180). -/
theorem step_of_remaining_cmd {s : State} {a : Byte} {rest : List Instr} (hd : s.attached ≠ .none)
    (hc : s.st.inCycle = true) (hp : s.cfg.paramsOk = true) (hv : s.inp.hostcmdValid = false)
    (hn : s.inp.placed = none) (hr : remaining s = .cmd a :: rest) :
    ∃ t evs, step s = .next (if rest = [] then leave s.st t else nextSub t) ∧ t.trace = s.trace ++ evs ∧
      erased evs = [evCmd a] ∧ TransactionFrame s t := by
  obtain ⟨t, evs, he, h⟩ := sends_sendCommand a hd
  exact ⟨t, evs, step_of_remaining hc hv hn hp hr he, h⟩

/-- A cycle state with `twice a` to run takes two steps, one per transaction, and is then left (R107, R24). -/
theorem runSteps_twice {s : State} {a : Byte} {q : St} (hd : s.attached ≠ .none) (hc : s.st.inCycle = true)
    (hl : stateList s = twice a) (hleave : leave s.st = goto q) (hsub : s.sub = 0)
    (hp : s.cfg.paramsOk = true) (hv : s.inp.hostcmdValid = false) (hn : s.inp.placed = none) :
    ∃ t evs, runSteps 2 s = .next t ∧ t.trace = s.trace ++ evs ∧ erased evs = [evCmd a, evCmd a] ∧
      t.st = q ∧ t.sub = 0 ∧ TransactionFrame s { t with st := s.st, sub := s.sub } := by
  have hlist := hasStateList_of_inCycle hc
  have hr : remaining s = [.cmd a, .cmd a] := by rw [remaining_eq_drop hlist, hl, hsub]; rfl
  obtain ⟨u, evs, hstep, htrace, herased, hframe⟩ := step_of_remaining_cmd hd hc hp hv hn hr
  -- between the two steps only SUB has moved on
  have hu : nextSub u = { u with st := s.st, sub := 1 } := by
    rw [hframe.1, nextSub, hsub]
    rfl
  have hl' : stateList (nextSub u) = twice a := (stateList_microFrame hframe.micro _).trans hl
  have hr' : remaining (nextSub u) = [.cmd a] := by
    rw [remaining_eq_drop (by rw [hu]; exact hlist), hl', hu]
    rfl
  obtain ⟨t, evs', hstep', htrace', herased', hframe'⟩ :=
    step_of_remaining_cmd (s := nextSub u) (by rw [hframe.1]; exact hd) (by rw [hu]; exact hc)
      (by rw [hframe.1]; exact hp) (by rw [hframe.1]; exact hv) (by rw [hframe.1]; exact hn) hr'
  refine ⟨goto q t, evs ++ evs', ?_, ?_, ?_, rfl, rfl, ?_⟩
  · have hst : (nextSub u).st = s.st := by rw [hu]
    simp only [runSteps, hstep, hstep', hst, hleave, andThen_next, reduceCtorEq, if_true, if_false]
  · rw [goto_trace, htrace', nextSub_trace, htrace, List.append_assoc]
  · rw [erased_append, herased, herased']
    rfl
  · exact (hframe.withPc s.st s.sub).trans (hframe'.withPc s.st s.sub)

/-- Settles O14: one command byte each, and `runSteps_twice` in its state. -/
theorem powerCommandsAreSentTwice : Obligations.PowerCommandsAreSentTwice := by
  intro s hd p hp
  simp only [List.mem_cons, List.not_mem_nil, or_false] at hp
  rcases hp with rfl | rfl | rfl
  all_goals
    refine ⟨sends_sendCommand _ hd, fun hs hsub hp hv hn => runSteps_twice hd ?_ ?_ ?_ hsub hp hv hn⟩
    · rw [hs]; rfl
    · unfold stateList; rw [hs]
    · rw [hs]; rfl

/-! ### Host codes that are ignored or refused -/

/-- Settles O24: a reserved code names no operation, so Idle has nothing to run and the presentation ends. -/
theorem reservedHostCodesAreIgnored : Obligations.ReservedHostCodesAreIgnored := by
  intro s hs hn _ hb
  have hfetch : fetch s = none := by
    refine Option.eq_none_iff_forall_ne_some.2 fun i hi => ?_
    obtain ⟨-, hd⟩ := (fetch_idle hs).1 hi
    rcases decodeHost_eq_ok.1 hd with ⟨h, -⟩ | ⟨h, -⟩ | ⟨h, -⟩ <;> rw [h] at hb <;> exact absurd hb (by decide)
  have hbook : bookkeep s = withdrawHostcmd s := by
    unfold bookkeep
    rw [hs]
  exact ⟨false, (step_of_fetch_none hn (stepRefusal_eq_none.2 (.inl hs)) hfetch).trans
    (congrArg Host.Outcome.next hbook)⟩

/-- A step that has no meaning is refused. -/
theorem step_of_stepRefusal {s : State} {r : Refusal} (hn : s.inp.placed = none) (hr : stepRefusal s = some r) :
    step s = .refused r := by
  rw [step_of_unplaced hn]
  unfold blockStep
  rw [hr]

/-- Settles O23: `stepRefusal` in flight, and the acceptance steps' own tests. -/
theorem refusedRuns : Obligations.RefusedRuns := by
  intro s
  refine ⟨fun hs => ⟨fun hn hv => ?_, fun hn hv hp => ?_, fun i hi => ?_⟩, fun hs hf hc => ?_⟩
  · exact step_of_stepRefusal hn (by simp [stepRefusal, hs, hv])
  · exact step_of_stepRefusal hn (by simp [stepRefusal, hs, hv, hp])
  · refine exec_hostOp_of_inFlight ?_ hs
    simp only [List.mem_cons, List.not_mem_nil, or_false] at hi
    rcases hi with rfl | rfl | rfl <;> rfl
  · simp [exec, execUpdate, hs, hf, hc]

end Sys2Proof.Machine

/-! PROOFS. Family 40_rotator: the rotation pixel by pixel (R130, R132), and what follows from its being a bijection
of pixels (R133).  The byte address and the bit number of a physical pixel give back its coordinates, so the closed
form of R132 at that address is the logical pixel R130 sends there. -/

namespace Sys2Proof.Machine

/-! ### Where a pixel of a frame stands -/

/-- The row and the byte within the row are read off the byte address of a pixel (R61). -/
theorem pixelAddress_div_mod {w x : Nat} (hw : w % 8 = 0) (hx : x < w) (y : Nat) :
    (y * (w / 8) + x / 8) / (w / 8) = y ∧ (y * (w / 8) + x / 8) % (w / 8) = x / 8 := by
  have hbyte : x / 8 < w / 8 := by omega
  rw [Nat.div_mod_unique (by omega)]
  exact ⟨by rw [Nat.mul_comm, Nat.add_comm], hbyte⟩

/-- The byte address of a pixel of the frame is below the frame's length (R61, R62). -/
theorem pixelAddress_lt {w h x y : Nat} (hw : w % 8 = 0) (hx : x < w) (hy : y < h) :
    y * (w / 8) + x / 8 < w * h / 8 := by
  have hbyte : x / 8 < w / 8 := by omega
  calc y * (w / 8) + x / 8 < (y + 1) * (w / 8) := by rw [Nat.succ_mul]; omega
    _ ≤ h * (w / 8) := Nat.mul_le_mul_right _ hy
    _ = w * h / 8 := by rw [Nat.mul_comm, Nat.div_mul_right_comm (Nat.dvd_of_mod_eq_zero hw)]

/-! ### The rotation, pixel by pixel -/

/-- Every bit of the rotated frame's bytes is the one R132 gives. -/
theorem getLsbD_readByte_rot {c : Config} {i b : Nat} (lf : Memory) (hi : i < c.frameBytes) (hb : b < 8) :
    (readByte (rot c lf) i).getLsbD b = rotBit c lf i b := by
  rw [readByte_rot, if_pos hi, packByte_getLsbD _ hb]

/-- The physical pixel `(px, py)` shows the logical pixel `(py, LOGICAL_H - 1 - px)` (R132). -/
theorem pix_rot {c : Config} (lf : Memory) (hg : c.geometryOk = true) {px py : Nat} (hx : px < c.panelW)
    (hy : py < c.panelH) :
    pix (rot c lf) c.panelW px py = pix lf c.logicalW py (c.logicalH - 1 - px) := by
  obtain ⟨-, -, hw, -⟩ := geometryOk_iff.1 hg
  obtain ⟨hrow, hbyte⟩ := pixelAddress_div_mod hw hx py
  have hcol : px / 8 * 8 + (7 - (7 - px % 8)) = px := by omega
  rw [pix, getLsbD_readByte_rot lf (pixelAddress_lt hw hx hy) (by omega), rotBit, Config.pstride, hrow, hbyte, hcol]

/-- The physical pixel `(LOGICAL_H - 1 - y, x)` shows the logical pixel `(x, y)` (R130). -/
theorem pix_rot_of_logical {c : Config} (lf : Memory) (hg : c.geometryOk = true) {x y : Nat} (hx : x < c.logicalW)
    (hy : y < c.logicalH) :
    pix (rot c lf) c.panelW (c.logicalH - 1 - y) x = pix lf c.logicalW x y := by
  obtain ⟨hh, hw, -⟩ := geometryOk_iff.1 hg
  rw [pix_rot lf hg (by omega) (by omega), show c.logicalH - 1 - (c.logicalH - 1 - y) = y by omega]

/-- Settles O27: `pix_rot_of_logical`, and PF is a frame written whole. -/
theorem rotatorMapsEveryLogicalPixel : Obligations.RotatorMapsEveryLogicalPixel := fun _ lf hg =>
  ⟨fun _ _ hx hy => pix_rot_of_logical lf hg hx hy, memoryWithin_memoryOf _ _, memoryWf_memoryOf _ _⟩

/-- Settles O28: every bit of PF is `rotBit`, which is the stated pixel with its address written out. -/
theorem rotatorClosedForm : Obligations.RotatorClosedForm := by
  intro c lf i b _ hi hb
  rw [getLsbD_readByte_rot lf hi hb]
  rfl

/-! ### The rotation keeps the number of pixels on -/

/-- How many of the first `n` numbers pass a test, as a sum. -/
theorem length_filter_range (p : Nat → Bool) (n : Nat) :
    ((List.range n).filter p).length = ∑ x ∈ Finset.range n, (p x).toNat := by
  induction n with
  | zero => rfl
  | succ n ih =>
    rw [List.range_succ, List.filter_append, List.length_append, ih, Finset.sum_range_succ]
    cases h : p n <;> simp [h]

/-- The pixels that are on, counted by a sum over rows and columns (R62). -/
theorem onPixels_eq_sum (m : Memory) (w h : Nat) :
    onPixels m w h = ∑ y ∈ Finset.range h, ∑ x ∈ Finset.range w, (pix m w x y).toNat := by
  simp only [onPixels, length_filter_range]
  rfl

/-- R133: rows and columns change places and each row of PF runs backwards along a column of LF, which leaves
the sum over all pixels as it is. -/
theorem onPixels_rot {c : Config} (lf : Memory) (hg : c.geometryOk = true) :
    onPixels (rot c lf) c.panelW c.panelH = onPixels lf c.logicalW c.logicalH := by
  obtain ⟨hh, hw, -⟩ := geometryOk_iff.1 hg
  rw [onPixels_eq_sum, onPixels_eq_sum]
  calc ∑ py ∈ Finset.range c.panelH, ∑ px ∈ Finset.range c.panelW, (pix (rot c lf) c.panelW px py).toNat
    _ = ∑ py ∈ Finset.range c.panelH, ∑ px ∈ Finset.range c.panelW,
          (pix lf c.logicalW py (c.panelW - 1 - px)).toNat :=
        Finset.sum_congr rfl fun py hy => Finset.sum_congr rfl fun px hx => by
          rw [pix_rot lf hg (Finset.mem_range.1 hx) (Finset.mem_range.1 hy), hh]
    _ = ∑ py ∈ Finset.range c.panelH, ∑ y ∈ Finset.range c.panelW, (pix lf c.logicalW py y).toNat :=
        Finset.sum_congr rfl fun py _ =>
          Finset.sum_range_reflect (fun y => (pix lf c.logicalW py y).toNat) c.panelW
    _ = ∑ y ∈ Finset.range c.logicalH, ∑ x ∈ Finset.range c.logicalW, (pix lf c.logicalW x y).toNat := by
        rw [Finset.sum_comm, hh, hw]

/-- Settles O29: the count is `onPixels_rot`, and each logical pixel is read off its physical one. -/
theorem rotatorIsABijection : Obligations.RotatorIsABijection := by
  intro c lf lf' hg
  refine ⟨onPixels_rot lf hg, fun heq x y hx hy => ?_⟩
  rw [← pix_rot_of_logical lf hg hx hy, heq, pix_rot_of_logical lf' hg hx hy]

end Sys2Proof.Machine

/-! PROOFS. Family 41_policy: the cadence (R140) and the temperature codes (R142, R143). -/

namespace Sys2Proof.Machine

/-- R140: the counter's case 0 is the multiple 0 of the cadence. -/
theorem modeSel_eq_full_iff {counter fue : Word} :
    modeSel counter fue = .full ↔ counter.toNat % fue.toNat = 0 := by
  have hmod : counter % fue = 0 ↔ counter.toNat % fue.toNat = 0 := by
    rw [← BitVec.toNat_inj, BitVec.toNat_umod]; rfl
  have hzero : counter = 0 → counter % fue = 0 := by
    rintro rfl; exact BitVec.zero_umod
  rw [← hmod, ← or_iff_right_of_imp hzero]
  exact Ne.ite_eq_left_iff nofun

/-- R140: Fast is the mode when Full is not. -/
theorem modeSel_eq_fast_iff {counter fue : Word} :
    modeSel counter fue = .fast ↔ counter.toNat % fue.toNat ≠ 0 := by
  rw [Ne, ← modeSel_eq_full_iff]
  cases modeSel counter fue <;> simp

/-- Settles O25: the two modes by their remainders, which are 0 at counter 0 and at cadence 1. -/
theorem modeSelectionFollowsTheCadence : Obligations.ModeSelectionFollowsTheCadence := fun _ _ _ =>
  ⟨modeSel_eq_full_iff, modeSel_eq_fast_iff, modeSel_eq_full_iff.2 (Nat.zero_mod _),
    modeSel_eq_full_iff.2 (Nat.mod_one _)⟩

/-- R142: 256 divides the 65536 that sign and no sign differ by. -/
theorem toNat_trunc8 (temp : Half) : ((trunc8 temp).toNat : Int) = temp.toInt % 256 := by
  rw [trunc8, BitVec.toNat_setWidth, BitVec.toInt_eq_toNat_cond]
  split <;> omega

/-- FAST_FLAG has bit 6 and no other (R8). -/
theorem getLsbD_fastFlag {c : Config} (h : c.HasSpecConstants) (j : Nat) :
    c.fastFlag.getLsbD j = decide (j = 6) := by
  have hflag : c.fastFlag = BitVec.twoPow 8 6 := h.fastFlag
  rw [hflag, BitVec.getLsbD_twoPow]
  simp [eq_comm]

/-- R143: the Fast code has bit 6 forced to 1. -/
theorem getLsbD_tempCode_fast {c : Config} (h : c.HasSpecConstants) (temp : Half) (j : Nat) :
    (tempCode c temp .fast).getLsbD j = (decide (j = 6) || (tempCode c temp .full).getLsbD j) := by
  rw [← getLsbD_fastFlag h, Bool.or_comm]
  exact BitVec.getLsbD_or

/-- R143: forcing bit 6 changes nothing exactly where it was set. -/
theorem tempCode_fast_eq_full_iff {c : Config} (h : c.HasSpecConstants) (temp : Half) :
    tempCode c temp .fast = tempCode c temp .full ↔ (tempCode c temp .full).getLsbD 6 = true := by
  constructor
  · intro heq
    rw [← heq, getLsbD_tempCode_fast h]
    rfl
  · intro hset
    refine BitVec.eq_of_getLsbD_eq fun j _ => ?_
    rw [getLsbD_tempCode_fast h]
    by_cases hj : j = 6 <;> simp [hj, hset]

/-- Settles O26: the Full code is `trunc8`, the Fast code adds FAST_FLAG, and the rest is bit by bit. -/
theorem temperatureCodes : Obligations.TemperatureCodes := fun _ temp =>
  ⟨toNat_trunc8 temp, rfl, fun h => ⟨fun j _ => getLsbD_tempCode_fast h temp j, tempCode_fast_eq_full_iff h temp⟩⟩

end Sys2Proof.Machine

/-! PROOFS. Family 42_otp_reader: the states of a SETUP one step at a time (R158 to R168), and the whole SETUP
(R163, R169) as an acceptance, SetupCheck, the command, S + 3 reads and SetupFin run one after the other.  The
discard reads are an induction on the bytes they discard. -/

namespace Sys2Proof.Machine

/-! ### SetupCheck and SetupFin -/

/-- The block stands at position `n` of the state `q` of a setup with the device `d` attached, the configuration
accepted, nothing presented or placed: `ReaderAt` at every position and with every device. -/
structure SetupAt (q : St) (n : Half) (d : Attached) (s : State) : Prop where
  st : s.st = q
  sub : s.sub = n
  device : s.attached = d
  params : s.cfg.paramsOk = true
  quiet : s.inp.hostcmdValid = false
  unplaced : s.inp.placed = none

theorem readerAt_iff_setupAt {q : St} {s : State} : ReaderAt q s ↔ SetupAt q 0 .cal s :=
  ⟨fun h => { h with }, fun h => { h with }⟩

/-- A run begins with its first step. -/
theorem runSteps_of_step {s t : State} (h : step s = .next t) (n : Nat) :
    runSteps (n + 1) s = runSteps n t := by
  rw [runSteps, h, andThen_next]

/-- A run is its first part and the rest. -/
theorem runSteps_of_runSteps {s t : State} {m : Nat} (h : runSteps m s = .next t) (n : Nat) :
    runSteps (m + n) s = runSteps n t := by
  rw [runSteps_add, h, andThen_next]

/-- ATTACH where no device is attached (R187). -/
theorem exec_attach_of_none {s : State} (d : Device) (h : s.attached = .none) :
    exec (.attach d) s = .next (emit (.attach d) { s with attached := Attached.ofDevice d }) := if_pos h

/-- DETACH of the attached device (R188). -/
theorem exec_detach_of_attached {s : State} {d : Device} (h : s.attached = Attached.ofDevice d) :
    exec (.detach d) s = .next (emit (.detach d) { s with attached := .none }) := if_pos h

namespace SetupAt

variable {q : St} {n : Half} {a : Attached} {d : Device} {s : State}

/-- The step of SetupCheck or SetupFin that has `i` to run, and `rest` after it (R24). -/
theorem step_of_remaining {u : State} {i : Instr} {rest : List Instr} (h : SetupAt q n a s)
    (hq : q = .setupCheck ∨ q = .setupFin) (hr : remaining s = i :: rest) (he : exec i s = .next u) :
    step s = .next (if rest = [] then leave q u else nextSub u) := by
  rw [step_of_fetch h.unplaced (stepRefusal_eq_none.2 (.inr ⟨h.quiet, h.params⟩)) (by rw [fetch, hr]; rfl) he,
    ← h.st, ← advance_of_remaining hr]
  unfold Machine.sequence
  rw [h.st]
  rcases hq with rfl | rfl <;> rfl

theorem remaining_setupCheck (h : SetupAt .setupCheck n a s) : remaining s = setupCheckOps s := by
  unfold remaining
  rw [h.st]

theorem remaining_setupFin (h : SetupAt .setupFin n a s) :
    remaining s = [Instr.detach .cal, .attach .wr].drop n.toNat := by
  unfold remaining
  rw [h.st, h.sub]

/-- SetupCheck first drives the reset line high (R158). -/
theorem step_rstset (h : SetupAt .setupCheck 0 a s) : ∃ t,
    t = { s with sub := 1, rst := .high, trace := s.trace ++ [.rstset .high] } ∧
      step s = .next t ∧ SetupAt .setupCheck 1 a t := by
  have hr : remaining s = .rstset .high :: (detachAttached s.attached ++ [.attach .cal]) := by
    rw [h.remaining_setupCheck, setupCheckOps, h.sub]
    rfl
  refine ⟨_, rfl, ?_, { h with sub := rfl }⟩
  rw [h.step_of_remaining (.inl rfl) hr rfl, if_neg (by simp), nextSub, emit_sub, h.sub]
  rfl

/-- SetupCheck then releases the device left attached (R158). -/
theorem step_detach (h : SetupAt .setupCheck 1 (Attached.ofDevice d) s) :
    ∃ t, t = { s with sub := 2, attached := .none, trace := s.trace ++ [.detach d] } ∧
      step s = .next t ∧ SetupAt .setupCheck 2 .none t := by
  have hr : remaining s = [.detach d, .attach .cal] := by
    rw [h.remaining_setupCheck, setupCheckOps, h.sub, h.device]
    cases d <;> rfl
  refine ⟨_, rfl, ?_, { h with sub := rfl, device := rfl }⟩
  rw [h.step_of_remaining (.inl rfl) hr (exec_detach_of_attached h.device), if_neg (by simp), nextSub, emit_sub,
    h.sub]
  rfl

/-- SetupCheck last attaches CAL and goes on to OtpCmd (R158). -/
theorem step_attachCal (h : SetupAt .setupCheck n .none s) (hn : n = 1 ∨ n = 2) :
    ∃ t, t = { s with st := .otpCmd, sub := 0, attached := .cal, trace := s.trace ++ [.attach .cal] } ∧
      step s = .next t ∧ ReaderAt .otpCmd t := by
  have hr : remaining s = [.attach .cal] := by
    rw [h.remaining_setupCheck, setupCheckOps, h.sub, h.device]
    rcases hn with rfl | rfl <;> rfl
  refine ⟨_, rfl, ?_, { h with st := rfl, sub := rfl, device := rfl }⟩
  rw [h.step_of_remaining (.inl rfl) hr (exec_attach_of_none _ h.device), if_pos rfl]
  rfl

/-- SetupCheck with no device attached (R158). -/
theorem runSteps_setupCheck_of_none (h : SetupAt .setupCheck 0 .none s) :
    ∃ t, t = { s with
        st := .otpCmd, sub := 0, rst := .high, attached := .cal,
        trace := s.trace ++ [.rstset .high, .attach .cal] } ∧
      runSteps 2 s = .next t ∧ ReaderAt .otpCmd t := by
  obtain ⟨_, rfl, e1, h1⟩ := h.step_rstset
  obtain ⟨_, rfl, e2, h2⟩ := h1.step_attachCal (.inl rfl)
  exact ⟨_, by simp, (runSteps_of_step e1 1).trans (runSteps_of_step e2 0), h2⟩

/-- SetupCheck with a device left attached (R158). -/
theorem runSteps_setupCheck_of_device (h : SetupAt .setupCheck 0 (Attached.ofDevice d) s) :
    ∃ t, t = { s with
        st := .otpCmd, sub := 0, rst := .high, attached := .cal,
        trace := s.trace ++ [.rstset .high, .detach d, .attach .cal] } ∧
      runSteps 3 s = .next t ∧ ReaderAt .otpCmd t := by
  obtain ⟨_, rfl, e1, h1⟩ := h.step_rstset
  obtain ⟨_, rfl, e2, h2⟩ := h1.step_detach
  obtain ⟨_, rfl, e3, h3⟩ := h2.step_attachCal (.inr rfl)
  exact ⟨_, by simp, (runSteps_of_step e1 2).trans ((runSteps_of_step e2 1).trans (runSteps_of_step e3 0)), h3⟩

/-- SetupFin first releases CAL (R168). -/
theorem step_detachCal (h : SetupAt .setupFin 0 .cal s) :
    ∃ t, t = { s with sub := 1, attached := .none, trace := s.trace ++ [.detach .cal] } ∧
      step s = .next t ∧ SetupAt .setupFin 1 .none t := by
  refine ⟨_, rfl, ?_, { h with sub := rfl, device := rfl }⟩
  rw [h.step_of_remaining (.inr rfl) h.remaining_setupFin (exec_detach_of_attached h.device), if_neg (by simp),
    nextSub, emit_sub, h.sub]
  rfl

/-- SetupFin last attaches WR, and the block is functional and at rest (R168). -/
theorem step_attachWr (h : SetupAt .setupFin 1 .none s) :
    step s = .next { s with
      st := .idle, sub := 0, functional := true, attached := .wr, trace := s.trace ++ [.attach .wr] } := by
  rw [h.step_of_remaining (.inr rfl) h.remaining_setupFin (exec_attach_of_none _ h.device), if_pos rfl]
  rfl

end SetupAt

/-- SetupFin, from its start to rest (R168). -/
theorem runSteps_setupFin {s : State} (h : ReaderAt .setupFin s) : runSteps 2 s = .next { s with
    st := .idle, functional := true, attached := .wr, trace := s.trace ++ [.detach .cal, .attach .wr] } := by
  obtain ⟨_, rfl, e1, h1⟩ := (readerAt_iff_setupAt.1 h).step_detachCal
  refine ((runSteps_of_step e1 1).trans (runSteps_of_step h1.step_attachWr 0)).trans ?_
  simp [runSteps, h.sub]

/-- Settles O31: SetupCheck's steps one after the other, without and with a device to release. -/
theorem setupCheckReleasesThenAttaches : Obligations.SetupCheckReleasesThenAttaches := by
  intro s hs hsub hp hv hn
  refine ⟨fun ha => ?_, fun d ha => ?_⟩
  · obtain ⟨_, rfl, e, -⟩ := SetupAt.runSteps_setupCheck_of_none ⟨hs, hsub, ha, hp, hv, hn⟩
    exact e
  · have hd : s.attached = Attached.ofDevice d := ha.trans (by cases d <;> rfl)
    obtain ⟨_, rfl, e, -⟩ := SetupAt.runSteps_setupCheck_of_device ⟨hs, hsub, hd, hp, hv, hn⟩
    exact e

/-- Settles O37: `runSteps_setupFin`. -/
theorem setupFinHandsOverToWr : Obligations.SetupFinHandsOverToWr := fun _ => runSteps_setupFin

/-! ### The reads -/

/-- What a reading state does after a read of the byte `b` that was answered OK (R160 to R166); no other state makes
a read. -/
def onGoodRead (b : Byte) : St → State → State
  | .otpDummy => goto .otpProbe
  | .otpProbe => fun u => goto .otpSkip (selectBank b u)
  | .otpSkip => skipOne
  | .otpData0 => fun u => goto .otpData1 { u with psrTmp0 := b }
  | .otpData1 => commit b
  | _ => id

/-- `s` after a read of the byte `b` that was answered OK, `q` and `bs` being the answers then still listed (R183). -/
def goodRead (b : Byte) (q : List TxStatus) (bs : List Byte) (s : State) : State :=
  { s with
    dc := .data, inp := s.inp.drawn q bs (s.inp.draws + 1), trace := s.trace ++ [.rd .data 0x00 b .ok] }

/-- The environment answers the next read OK with the byte `b`, and then still lists `q` and `bs` (R176; log entry
7). -/
structure AnswersOk (b : Byte) (q : List TxStatus) (bs : List Byte) (s : State) : Prop where
  status : nextStatus s = .ok
  byte : nextByte s = b
  statuses : s.inp.statuses.tail = q
  bytes : s.inp.readBytes.tail = bs

theorem answersOk_of_nextStatus {s : State} (h : nextStatus s = .ok) :
    AnswersOk (nextByte s) s.inp.statuses.tail s.inp.readBytes.tail s := ⟨h, rfl, rfl, rfl⟩

theorem nextStatus_of_listed {st : TxStatus} {q : List TxStatus} {s : State} (h : s.inp.statuses = st :: q) :
    nextStatus s = st := by
  rw [nextStatus, h]

theorem answersOk_of_listed {b : Byte} {q : List TxStatus} {bs : List Byte} {s : State}
    (hst : s.inp.statuses = .ok :: q) (hb : s.inp.readBytes = b :: bs) : AnswersOk b q bs s :=
  ⟨nextStatus_of_listed hst, by rw [nextByte, hb], congrArg List.tail hst, congrArg List.tail hb⟩

/-- The bank OtpProbe selects with the probe byte `b` (R161). -/
def selectedBank (c : Config) (b : Byte) : Bank := if b = c.otpSentinel then .bank0 else .bank1

/-- The start address OtpProbe selects with the probe byte `b` (R161). -/
def selectedStart (c : Config) (b : Byte) : Nat :=
  if b = c.otpSentinel then c.otpBank0Start else c.otpBank1Start

/-- Does `q` make a read: a state of the reader but OtpCmd, and OtpSkip while OTP_SKIP is positive (R159 to R165)? -/
def MakesRead (q : St) (s : State) : Prop :=
  q ∈ [St.otpDummy, .otpProbe, .otpData0, .otpData1] ∨ (q = .otpSkip ∧ s.otpSkip ≠ 0)

section

variable {q : St} {b : Byte} {sts : List TxStatus} {bs : List Byte} {s u : State}

theorem makesRead_of_mem (hq : q ∈ [St.otpCmd, .otpDummy, .otpProbe, .otpSkip, .otpData0, .otpData1])
    (hcmd : q ≠ .otpCmd) (hskip : q = .otpSkip → s.otpSkip ≠ 0) : MakesRead q s := by
  by_cases hs : q = .otpSkip
  · exact .inr ⟨hs, hskip hs⟩
  · exact .inl (by simpa [hcmd, hs] using hq)

/-- A reading state makes its read, and acts on a good answer by its own rule and on ERR by R167. -/
theorem step_of_read (h : ReaderAt q s) (hq : MakesRead q s) :
    step s = .next (afterRead (nextStatus s) (onGoodRead (nextByte s) q) (readTransaction s)) := by
  rw [step_of_readerAt_rd h hq]
  unfold Machine.sequence
  rw [h.st]
  rcases hq with hq | ⟨rfl, -⟩
  · simp only [List.mem_cons, List.not_mem_nil, or_false] at hq
    rcases hq with rfl | rfl | rfl | rfl <;> rfl
  · rfl

/-- The step of a read answered OK, `t` being what the state's rule then makes of it. -/
theorem step_of_goodRead {t : State} (h : ReaderAt q s) (hq : MakesRead q s) (ha : AnswersOk b sts bs s)
    (ht : onGoodRead b q (goodRead b sts bs s) = t) : step s = .next t := by
  obtain ⟨hok, rfl, rfl, rfl⟩ := ha
  rw [step_of_read h hq, readTransaction_eq, hok, ← ht]
  rfl

/-- Going on from `(S, 0)` writes ST only. -/
theorem goto_of_sub (q : St) (h : u.sub = 0) : goto q u = { u with st := q } := by
  rw [goto, ← h]

/-- OtpProbe's bank, start address and transition (R161). -/
theorem onGoodRead_otpProbe (h : u.sub = 0) :
    onGoodRead b .otpProbe u = { u with
      st := .otpSkip, otpBank := selectedBank u.cfg b
      otpSkip := BitVec.ofNat 16 (selectedStart u.cfg b - 1) } := by
  show goto .otpSkip (selectBank b u) = _
  unfold selectBank selectedBank selectedStart
  split <;> exact goto_of_sub _ h

/-- A discard read counts OTP_SKIP down, and the last one leaves the state (R162). -/
theorem onGoodRead_otpSkip (hs : u.st = .otpSkip) (h : u.sub = 0) :
    onGoodRead b .otpSkip u = { u with
      st := if u.otpSkip = 1 then .otpData0 else .otpSkip, otpSkip := u.otpSkip - 1 } := by
  show skipOne u = _
  by_cases h1 : u.otpSkip = 1
  · rw [skipOne_of_zero (sub_eq_zero.2 h1), if_pos h1]
    exact goto_of_sub _ h
  · rw [skipOne_of_ne (mt sub_eq_zero.1 h1), if_neg h1, ← hs]

/-- OtpData1 commits a plausible pair (R166). -/
theorem onGoodRead_otpData1 (h : u.sub = 0)
    (hp : (⟨u.psrTmp0, b⟩ : PanelSettings) ∉ u.cfg.psrImplausible) :
    onGoodRead b .otpData1 u = { u with st := .setupFin, psrBase := ⟨u.psrTmp0, b⟩ } :=
  (commit_of_plausible (decide_eq_true hp)).trans (goto_of_sub _ h)

/-- The failure step from `(S, 0)`, register by register (R167). -/
theorem calibrationFails_of_sub (h : u.sub = 0) :
    calibrationFails u = { u with
      st := .setupFin, psrBase := u.cfg.psrDefault, status := u.status ||| 0b0100#4,
      trace := u.trace ++ [.err .calibration] } :=
  goto_of_sub (u := { raise .calibration u with psrBase := u.cfg.psrDefault }) _ h

/-- The failure step after a transaction `e` of `s` whose ERR has been raised (R167, R281). -/
theorem calibrationFails_of_busError {e : Event} {i : Inputs} (h : s.sub = 0)
    (hu : u = { s with
      dc := .data, inp := i, status := setStatus s.status .bus, trace := s.trace ++ [e, .err .bus] }) :
    calibrationFails u = { s with
      st := .setupFin, dc := .data, psrBase := s.cfg.psrDefault, status := s.status ||| 0b0101#4, inp := i,
      trace := s.trace ++ [e, .err .bus, .err .calibration] } := by
  have hflags : setStatus s.status .bus ||| 0b0100#4 = s.status ||| 0b0101#4 := BitVec.or_assoc _ _ _
  rw [calibrationFails_of_sub (by rw [hu]; exact h), hu]
  simp [hflags]

/-- OtpData1 takes the failure step on any other pair, without a bus error (R166). -/
theorem onGoodRead_otpData1_of_implausible (h : u.sub = 0)
    (hp : (⟨u.psrTmp0, b⟩ : PanelSettings) ∈ u.cfg.psrImplausible) :
    onGoodRead b .otpData1 u = { u with
      st := .setupFin, psrBase := u.cfg.psrDefault, status := u.status ||| 0b0100#4,
      trace := u.trace ++ [.err .calibration] } :=
  (commit_of_implausible (decide_eq_false (not_not_intro hp))).trans (calibrationFails_of_sub h)

/-- OtpDummy discards its byte (R160). -/
theorem step_otpDummy (h : ReaderAt .otpDummy s) (ha : AnswersOk b sts bs s) :
    ∃ t, t = goodRead b sts bs { s with st := .otpProbe } ∧ step s = .next t ∧ ReaderAt .otpProbe t :=
  ⟨_, rfl, step_of_goodRead h (.inl (by simp)) ha (goto_of_sub _ h.sub), { h with st := rfl }⟩

/-- OtpProbe selects the bank and the number of discard reads (R161). -/
theorem step_otpProbe (h : ReaderAt .otpProbe s) (ha : AnswersOk b sts bs s) :
    ∃ t, t = goodRead b sts bs { s with
        st := .otpSkip
        otpBank := selectedBank s.cfg b
        otpSkip := BitVec.ofNat 16 (selectedStart s.cfg b - 1) } ∧
      step s = .next t ∧ ReaderAt .otpSkip t :=
  ⟨_, rfl, step_of_goodRead h (.inl (by simp)) ha (onGoodRead_otpProbe h.sub), { h with st := rfl }⟩

/-- OtpSkip makes one discard read (R162). -/
theorem step_otpSkip (h : ReaderAt .otpSkip s) (hne : s.otpSkip ≠ 0) (ha : AnswersOk b sts bs s) :
    ∃ t, t = goodRead b sts bs { s with
        st := if s.otpSkip = 1 then .otpData0 else .otpSkip, otpSkip := s.otpSkip - 1 } ∧
      step s = .next t ∧ ReaderAt (if s.otpSkip = 1 then .otpData0 else .otpSkip) t :=
  ⟨_, rfl, step_of_goodRead h (.inr ⟨rfl, hne⟩) ha (onGoodRead_otpSkip h.st h.sub), { h with st := rfl }⟩

/-- OtpData0 keeps its byte (R164). -/
theorem step_otpData0 (h : ReaderAt .otpData0 s) (ha : AnswersOk b sts bs s) :
    ∃ t, t = goodRead b sts bs { s with st := .otpData1, psrTmp0 := b } ∧
      step s = .next t ∧ ReaderAt .otpData1 t :=
  ⟨_, rfl, step_of_goodRead h (.inl (by simp)) ha (goto_of_sub _ (by exact h.sub)), { h with st := rfl }⟩

/-- OtpData1 commits a plausible pair (R165, R166). -/
theorem step_otpData1 (h : ReaderAt .otpData1 s) (ha : AnswersOk b sts bs s)
    (hp : (⟨s.psrTmp0, b⟩ : PanelSettings) ∉ s.cfg.psrImplausible) :
    ∃ t, t = goodRead b sts bs { s with st := .setupFin, psrBase := ⟨s.psrTmp0, b⟩ } ∧
      step s = .next t ∧ ReaderAt .setupFin t :=
  ⟨_, rfl, step_of_goodRead h (.inl (by simp)) ha (onGoodRead_otpData1 h.sub hp), { h with st := rfl }⟩

/-- OtpData1 fails on any other pair: CAL_FAIL alone, ERR Calibration and PSR_DEFAULT (R166, R167). -/
theorem step_otpData1_of_implausible (h : ReaderAt .otpData1 s) (ha : AnswersOk b sts bs s)
    (hp : (⟨s.psrTmp0, b⟩ : PanelSettings) ∈ s.cfg.psrImplausible) :
    step s = .next { s with
      st := .setupFin, dc := .data, psrBase := s.cfg.psrDefault, status := s.status ||| 0b0100#4
      inp := s.inp.drawn sts bs (s.inp.draws + 1)
      trace := s.trace ++ [.rd .data 0x00 b .ok, .err .calibration] } := by
  rw [step_of_goodRead h (.inl (by simp)) ha (onGoodRead_otpData1_of_implausible (by exact h.sub) hp)]
  simp [goodRead]

/-- OtpSkip with nothing to discard is left at once (R162; log entry 12). -/
theorem step_otpSkip_of_zero (h : ReaderAt .otpSkip s) (hz : s.otpSkip = 0) :
    step s = .next { s with st := .otpData0 } := by
  have hf : fetch s = none := by
    unfold fetch remaining
    rw [h.st, hz]
    rfl
  have hb : bookkeep s = goto .otpData0 s := by
    unfold bookkeep
    rw [h.st]
    rfl
  rw [step_of_fetch_none h.unplaced (stepRefusal_of_readerAt h) hf, hb, goto_of_sub _ h.sub]

/-- OtpCmd with a good status (R159). -/
theorem step_otpCmd_of_ok (h : ReaderAt .otpCmd s) (hok : nextStatus s = .ok) :
    ∃ t, t = { s with
        st := .otpDummy, dc := .data,
        inp := s.inp.drawn s.inp.statuses.tail s.inp.readBytes (s.inp.draws + 1),
        trace := s.trace ++ [.cmd .command s.cfg.addrs.otpRead .ok] } ∧
      step s = .next t ∧ ReaderAt .otpDummy t := by
  refine ⟨_, rfl, ?_, { h with st := rfl }⟩
  rw [step_of_readerAt_otpCmd h, sendTransaction_of_ok hok]
  unfold Machine.sequence
  rw [h.st, hok]
  exact congrArg Host.Outcome.next (goto_of_sub _ (by exact h.sub))

/-- OtpCmd with a status ERR: `send_command` has raised BusTransactionError itself (R167, R180; log entry 14). -/
theorem step_otpCmd_of_err (h : ReaderAt .otpCmd s) (herr : nextStatus s = .err) :
    step s = .next (calibrationFails (sendTransaction .command
      (fun dc st => .cmd dc s.cfg.addrs.otpRead st) s)) := by
  rw [step_of_readerAt_otpCmd h]
  unfold Machine.sequence
  rw [h.st, herr]

/-- A read with a status ERR: the reader raises BusTransactionError for it (R167, R183). -/
theorem step_of_read_of_err (h : ReaderAt q s) (hq : MakesRead q s) (herr : nextStatus s = .err) :
    step s = .next (calibrationFails (raise .bus (readTransaction s))) := by
  rw [step_of_read h hq, herr]
  rfl

end

/-- Settles O36: OtpCmd's command has raised ERR Bus, a read's failure step raises it; ERR Calibration follows. -/
theorem readerFailsOnTheFirstError : Obligations.ReaderFailsOnTheFirstError := by
  intro q s hq h herr hskip
  by_cases hc : q = .otpCmd
  · subst hc
    rw [step_otpCmd_of_err h herr, if_pos rfl]
    exact ⟨_, _, _, congrArg _ (calibrationFails_of_busError h.sub (sendTransaction_of_err herr))⟩
  · have hraised : raise .bus (readTransaction s) = { s with
        dc := .data, inp := s.inp.drawn s.inp.statuses.tail s.inp.readBytes.tail (s.inp.draws + 1),
        status := setStatus s.status .bus,
        trace := s.trace ++ [.rd .data 0x00 (nextByte s) .err, .err .bus] } := by
      rw [readTransaction_eq, herr]
      simp [raise, emit]
    rw [step_of_read_of_err h (makesRead_of_mem hq hc hskip) herr, if_neg hc]
    exact ⟨_, _, _, congrArg _ (calibrationFails_of_busError h.sub hraised)⟩

/-- Settles O32: OtpDummy goes on to OtpProbe after any good read. -/
theorem otpCommandAndDummyRead : Obligations.OtpCommandAndDummyRead := by
  intro s hok
  refine ⟨fun h => ?_, fun h => ?_⟩
  · obtain ⟨_, rfl, e, -⟩ := step_otpCmd_of_ok h hok
    exact ⟨_, _, e⟩
  · obtain ⟨_, rfl, e, -⟩ := step_otpDummy h (answersOk_of_nextStatus hok)
    exact ⟨_, _, _, e⟩

/-- The start addresses of an accepted configuration are positive and fit OTP_SKIP (R255). -/
theorem selectedStart_bounds {c : Config} (h : c.paramsOk = true) (b : Byte) :
    1 ≤ selectedStart c b ∧ selectedStart c b < 65536 := by
  simp only [Config.paramsOk, Bool.and_eq_true, decide_eq_true_eq] at h
  unfold selectedStart
  split <;> omega

/-- OTP_SKIP holds the selected start address minus 1 without loss (R161, R255). -/
theorem toNat_ofNat_selectedStart {c : Config} (h : c.paramsOk = true) (b : Byte) :
    (BitVec.ofNat 16 (selectedStart c b - 1)).toNat = selectedStart c b - 1 :=
  Nat.mod_eq_of_lt (lt_of_le_of_lt (Nat.sub_le _ _) (selectedStart_bounds h b).2)

/-- Settles O33: the selected start address fits OTP_SKIP; on ERR the failure step writes neither register. -/
theorem otpProbeSelectsTheBank : Obligations.OtpProbeSelectsTheBank := by
  intro s h
  refine ⟨fun hc => hc.otpSentinel, fun hok => ?_, fun herr => ?_⟩
  · obtain ⟨_, rfl, e, -⟩ := step_otpProbe h (answersOk_of_nextStatus hok)
    exact ⟨_, _, _, _, toNat_ofNat_selectedStart h.params _, e⟩
  · obtain ⟨_, _, _, e⟩ := readerFailsOnTheFirstError _ s (by simp) h herr nofun
    exact ⟨_, e, rfl, rfl, rfl⟩

/-- Settles O34: the silent step at 0, one discard read, or the failure step. -/
theorem otpSkipDiscardsReads : Obligations.OtpSkipDiscardsReads := by
  intro s h
  refine ⟨step_otpSkip_of_zero h, fun hne hok => ?_, fun hne herr => ?_⟩
  · obtain ⟨_, rfl, e, -⟩ := step_otpSkip h hne (answersOk_of_nextStatus hok)
    exact ⟨_, _, _, e⟩
  · obtain ⟨_, _, _, e⟩ := readerFailsOnTheFirstError _ s (by simp) h herr fun _ => hne
    exact ⟨_, e, rfl, rfl⟩

/-- Settles O35: OtpData0 keeps its byte; OtpData1 commits a plausible pair and fails on any other. -/
theorem otpDataBytesAreCommitted : Obligations.OtpDataBytesAreCommitted := by
  intro s
  refine ⟨fun h hok => ?_, fun h hok hp => ?_, fun h hok hp => ?_⟩
  · obtain ⟨_, rfl, e, -⟩ := step_otpData0 h (answersOk_of_nextStatus hok)
    exact ⟨_, _, _, e⟩
  · obtain ⟨_, rfl, e, -⟩ := step_otpData1 h (answersOk_of_nextStatus hok) hp
    exact ⟨_, _, _, e⟩
  · exact ⟨_, _, _, step_otpData1_of_implausible h (answersOk_of_nextStatus hok) hp⟩

/-! ### A whole SETUP -/

section

variable {s : State} {rest : List TxStatus} {more : List Byte}

/-- The acceptance step of a SETUP (R251; log entry 9). -/
theorem step_of_presented_setup (hn : s.inp.placed = none) (hp : Presented 0x01 s)
    (hc : s.cfg.configOk s.inp.fullUpdateEvery = true) :
    step s = .next (withdrawHostcmd (setupStarts s)) := by
  obtain ⟨hs, hv, hcode⟩ := hp
  have hf : fetch s = some .setup := (fetch_idle hs).2 ⟨hv, decodeHost_eq_ok.2 (.inl ⟨hcode, rfl⟩)⟩
  have he : exec .setup s = .next (setupStarts s) := by simp [exec, execSetup, hs, hc]
  rw [step_of_fetch hn (stepRefusal_eq_none.2 (.inl hs)) hf he]
  unfold Machine.sequence
  rw [hs]

/-- SetupCheck as a SETUP reaches it: CAL is not attached (R158). -/
theorem runSteps_setupCheck {a : Attached} (h : SetupAt .setupCheck 0 a s) (ha : a ≠ .cal) :
    ∃ n t, n ≤ 3 ∧
      t = { s with
        st := .otpCmd, sub := 0, rst := .high, attached := .cal,
        trace := s.trace ++ [.rstset .high] ++ (if a = .wr then [.detach .wr] else []) ++ [.attach .cal] } ∧
      runSteps n s = .next t ∧ ReaderAt .otpCmd t := by
  cases a with
  | none =>
    obtain ⟨_, rfl, e, h⟩ := h.runSteps_setupCheck_of_none
    exact ⟨2, _, by omega, by simp, e, h⟩
  | cal => exact absurd rfl ha
  | wr =>
    obtain ⟨_, rfl, e, h⟩ := SetupAt.runSteps_setupCheck_of_device (d := .wr) h
    exact ⟨3, _, by omega, by simp, e, h⟩

/-- The discard reads, one listed answer each (R162); with none to make, the silent step. -/
theorem runSteps_otpSkip {skipped : List Byte} (h : ReaderAt .otpSkip s) (hdc : s.dc = .data)
    (hn : s.otpSkip.toNat = skipped.length)
    (hst : s.inp.statuses = List.replicate skipped.length .ok ++ rest) (hb : s.inp.readBytes = skipped ++ more) :
    ∃ n t k, n ≤ max skipped.length 1 ∧
      t = { s with
        st := .otpData0, dc := .data, otpSkip := 0, inp := s.inp.drawn rest more k,
        trace := s.trace ++ skipped.map (fun v => .rd .data 0x00 v .ok) } ∧
      runSteps n s = .next t ∧ ReaderAt .otpData0 t := by
  induction skipped generalizing s with
  | nil =>
    have hz : s.otpSkip = 0 := BitVec.toNat_inj.1 hn
    refine ⟨1, _, s.inp.draws, by simp, ?_, runSteps_of_step (step_otpSkip_of_zero h hz) 0, { h with st := rfl }⟩
    obtain rfl : s.inp.statuses = rest := hst
    obtain rfl : s.inp.readBytes = more := hb
    simp [hdc, hz, Inputs.drawn]
  | cons v vs ih =>
    have hne : s.otpSkip ≠ 0 := fun hz => by simp [hz] at hn
    obtain ⟨t, ht, e, h'⟩ := step_otpSkip h hne (answersOk_of_listed hst hb)
    by_cases hone : s.otpSkip = 1
    · obtain rfl : vs = [] := by simpa [hone] using hn.symm
      rw [if_pos hone] at ht h'
      refine ⟨1, t, s.inp.draws + 1, by simp, ?_, runSteps_of_step e 0, h'⟩
      simp [ht, goodRead, hone, Inputs.drawn]
    · have hlen : (s.otpSkip - 1).toNat = vs.length := by
        rw [List.length_cons] at hn
        bv_omega
      have hpos : vs.length ≠ 0 := fun h0 => hone (BitVec.toNat_inj.1 (by simp [hn, h0]))
      rw [if_neg hone] at ht h'
      subst ht
      obtain ⟨n, _, k, hle, rfl, e', h''⟩ := ih h' rfl hlen rfl rfl
      refine ⟨n + 1, _, k, ?_, ?_, (runSteps_of_step e n).trans e', h''⟩
      · rw [List.length_cons]; omega
      · simp [goodRead, Inputs.drawn]

/-- The reader after its command, on good answers and a plausible pair: S + 3 reads (R160 to R166). -/
theorem runSteps_reads {dummy probe d0 d1 : Byte} {skipped : List Byte} (h : ReaderAt .otpDummy s)
    (hlen : skipped.length = selectedStart s.cfg probe - 1)
    (hst : s.inp.statuses = .ok :: .ok :: (List.replicate skipped.length .ok ++ .ok :: .ok :: rest))
    (hb : s.inp.readBytes = dummy :: probe :: (skipped ++ d0 :: d1 :: more))
    (hp : (⟨d0, d1⟩ : PanelSettings) ∉ s.cfg.psrImplausible) :
    ∃ n t k, n ≤ max skipped.length 1 + 4 ∧
      t = { s with
        st := .setupFin, dc := .data, psrBase := ⟨d0, d1⟩, psrTmp0 := d0
        otpBank := selectedBank s.cfg probe
        otpSkip := 0, inp := s.inp.drawn rest more k
        trace := s.trace ++ (dummy :: probe :: (skipped ++ [d0, d1])).map (fun v => .rd .data 0x00 v .ok) } ∧
      runSteps n s = .next t ∧ ReaderAt .setupFin t := by
  obtain ⟨s1, t1, e1, h1⟩ := step_otpDummy h (answersOk_of_listed hst hb)
  obtain ⟨s2, t2, e2, h2⟩ := step_otpProbe h1 (answersOk_of_listed (by rw [t1]; rfl) (by rw [t1]; rfl))
  have hskip : s2.otpSkip.toNat = skipped.length := by
    rw [hlen, ← toNat_ofNat_selectedStart h.params, t2, t1]
    rfl
  obtain ⟨n, s3, k, hn, t3, e3, h3⟩ :=
    runSteps_otpSkip h2 (by rw [t2]; rfl) hskip (by rw [t2]; rfl) (by rw [t2]; rfl)
  obtain ⟨s4, t4, e4, h4⟩ := step_otpData0 h3 (answersOk_of_listed (by rw [t3]; rfl) (by rw [t3]; rfl))
  obtain ⟨s5, t5, e5, h5⟩ := step_otpData1 h4 (b := d1) (answersOk_of_listed (by rw [t4]; rfl) (by rw [t4]; rfl))
    (by rw [t4, t3, t2, t1]; exact hp)
  have edata : runSteps 2 s3 = .next s5 := (runSteps_of_step e4 1).trans (runSteps_of_step e5 0)
  refine ⟨n + 2 + 1 + 1, s5, k + 1 + 1, by omega, ?_, ?_, h5⟩
  · simp [t5, t4, t3, t2, t1, goodRead, Inputs.drawn]
  · rw [runSteps_of_step e1, runSteps_of_step e2, runSteps_of_runSteps e3, edata]

end

/-- Settles O38: the acceptance step, SetupCheck, the command, the reads and SetupFin, one run after the other. -/
theorem setupReadsThePanelSettings : Obligations.SetupReadsThePanelSettings := by
  intro s dummy probe d0 d1 skipped more rest start hinv hpres hok hstart hlen hb hst hp
  have hrest := hinv.atRest hpres.1
  have hparams := (configOk_iff.1 hok).1
  obtain ⟨hpos, -⟩ := selectedStart_bounds hparams probe
  change start = selectedStart s.cfg probe at hstart
  have hlisted : s.inp.statuses =
      .ok :: .ok :: .ok :: (List.replicate skipped.length .ok ++ .ok :: .ok :: rest) := by
    rw [hst, show start + 4 = 3 + (skipped.length + 2) by omega, List.replicate_add, List.replicate_add]
    simp [List.replicate]
  have e1 := step_of_presented_setup hrest.unplaced hpres hok
  have h1 : SetupAt .setupCheck 0 s.attached (withdrawHostcmd (setupStarts s)) :=
    ⟨rfl, rfl, rfl, hparams, rfl, hrest.unplaced⟩
  obtain ⟨n2, s2, hn2, t2, e2, h2⟩ := runSteps_setupCheck h1 hrest.attached_ne_cal
  have hok2 : nextStatus s2 = .ok := nextStatus_of_listed (by rw [t2]; exact hlisted)
  obtain ⟨s3, t3, e3, h3⟩ := step_otpCmd_of_ok h2 hok2
  obtain ⟨n4, s4, k, hn4, t4, e4, h4⟩ := runSteps_reads (probe := probe) (rest := rest) h3
    (by rw [hlen, hstart, t3, t2]; rfl) (by simp [t3, t2, setupStarts, Inputs.drawn, hlisted])
    (by rw [t3, t2]; exact hb) (by rw [t3, t2]; exact hp)
  obtain ⟨s5, t5, e5⟩ : ∃ t, t = _ ∧ runSteps 2 s4 = .next t := ⟨_, rfl, runSteps_setupFin h4⟩
  refine ⟨n2 + (n4 + 2 + 1) + 1, s5, by omega, ?_, ?_, ?_⟩
  · rw [runSteps_of_step e1, runSteps_of_runSteps e2, runSteps_of_step e3, runSteps_of_runSteps e4, e5]
  · simp [t5, t4, t3, t2, setupStarts]
  · simp [t5, t4, t3, t2, setupStarts, selectedBank, Inputs.drawn, hrest.st, hrest.sub, hrest.dc, hrest.rst]

end Sys2Proof.Machine

/-! PROOFS. Family 43_sequencer: the micro-operations one by one (R180 to R189), and what R176 and R184 ask of the
whole block: that it always has a next step, and that every operation comes to rest.  For the second, `stepsLeft`
counts the steps that a state in flight can still take, and every step in flight brings it down. -/

namespace Sys2Proof.Machine

/-! ### Single transactions -/

section

variable {l : DcLevel} {ev : DcLevel → TxStatus → Event} {s : State}

/-- A transaction that the environment answers OK (R180 to R182). -/
theorem requireDevice_sendTransaction_of_ok (hd : s.attached ≠ .none) (h : nextStatus s = .ok) :
    requireDevice (sendTransaction l ev) s = .next { s with
      dc := .data, inp := s.inp.drawn s.inp.statuses.tail s.inp.readBytes (s.inp.draws + 1),
      trace := s.trace ++ [ev l .ok] } := by
  rw [requireDevice_of_attached hd, sendTransaction_of_ok h]

/-- A transaction that the environment answers ERR (R180 to R182, R272). -/
theorem requireDevice_sendTransaction_of_err (hd : s.attached ≠ .none) (h : nextStatus s = .err) :
    requireDevice (sendTransaction l ev) s = .next { s with
      dc := .data, status := s.status ||| 0b0001#4,
      inp := s.inp.drawn s.inp.statuses.tail s.inp.readBytes (s.inp.draws + 1),
      trace := s.trace ++ [ev l .err, .err .bus] } := by
  rw [requireDevice_of_attached hd, sendTransaction_of_err h, setStatus_bus]

end

/-- DAT is `send_data` of one byte (R181). -/
theorem exec_dat (b : Byte) (s : State) : exec (.dat b) s = sendByte b s :=
  andThen_next_right _

/-- Settles O1: a command-level transaction, under either answer. -/
theorem cmdSendsOneCommandByte : Obligations.CmdSendsOneCommandByte := fun _ _ =>
  ⟨fun hd h => ⟨_, _, requireDevice_sendTransaction_of_ok hd h⟩,
    fun hd h => ⟨_, _, requireDevice_sendTransaction_of_err hd h⟩⟩

/-- Settles O2: a data-level transaction, under either answer. -/
theorem datSendsOneDataByte : Obligations.DatSendsOneDataByte := by
  intro b s
  rw [exec_dat]
  exact ⟨fun hd h => ⟨_, _, requireDevice_sendTransaction_of_ok hd h⟩,
    fun hd h => ⟨_, _, requireDevice_sendTransaction_of_err hd h⟩⟩

/-- Every byte of a frame's payload is the byte of its source, ZF reading 0x00 everywhere (R63, R182). -/
theorem framePayload_getElem? (s : State) (src : FrameSrc) {a : Nat} (ha : a < s.cfg.frameBytes) :
    (framePayload s src)[a]? = some (readByte (frameSource s src) a) := by
  simp [framePayload, frameOf, ha]

/-- Settles O4: one data-level transaction whose payload is `framePayload`, under either answer. -/
theorem bulkSendsTheWholeFrame : Obligations.BulkSendsTheWholeFrame := by
  intro src s hd
  refine ⟨framePayload s src, _, _, frameOf_length _ _, fun a ha => ?_,
    fun h => requireDevice_sendTransaction_of_ok hd h, fun h => requireDevice_sendTransaction_of_err hd h⟩
  rw [framePayload_getElem? s src ha]
  cases src <;> rfl

/-- Settles O5: `readTransaction_eq` where a device is attached. -/
theorem rdReadsOneByte : Obligations.RdReadsOneByte := by
  intro s hd
  have he : exec .rd s = .next (readTransaction s) := requireDevice_of_attached hd
  rw [he, readTransaction_eq]
  exact ⟨_, _, _, rfl⟩

/-! ### Data bytes one after the other -/

/-- The events of one data byte, by the status the environment answers (R181). -/
def datEvents (b : Byte) : TxStatus → List Event
  | .ok => [.dat .data b .ok]
  | .err => [.dat .data b .err, .err .bus]

/-- One byte of `send_data`: its events, the flag of a failure, and one status used up (R181). -/
theorem sendByte_next (b : Byte) {s : State} (hd : s.attached ≠ .none) :
    ∃ t, sendByte b s = .next t ∧ t.trace = s.trace ++ datEvents b (nextStatus s) ∧
      t.status = (if nextStatus s = .err then s.status ||| 0b0001#4 else s.status) ∧
      t.inp.statuses = s.inp.statuses.tail ∧ t.attached ≠ .none := by
  cases h : nextStatus s
  · exact ⟨_, requireDevice_sendTransaction_of_ok hd h, rfl, rfl, rfl, hd⟩
  · exact ⟨_, requireDevice_sendTransaction_of_err hd h, rfl, rfl, rfl, hd⟩

/-- `send_data`, by induction on its bytes: no answer for one byte stops the rest (R181). -/
theorem sendData_next (bytes : List Byte) {s : State} (hd : s.attached ≠ .none) :
    ∃ t sts, sendData bytes s = .next t ∧ sts.length = bytes.length ∧
      t.trace = s.trace ++ (List.zipWith datEvents bytes sts).flatten ∧
      t.status = (if TxStatus.err ∈ sts then s.status ||| 0b0001#4 else s.status) ∧
      ∀ answers rest, s.inp.statuses = answers ++ rest → answers.length = bytes.length →
        sts = answers ∧ t.inp.statuses = rest := by
  induction bytes generalizing s with
  | nil =>
    refine ⟨s, [], rfl, rfl, (List.append_nil _).symm, rfl, fun answers rest h hlen => ?_⟩
    obtain rfl := List.length_eq_zero_iff.1 hlen
    exact ⟨rfl, h⟩
  | cons b bytes ih =>
    obtain ⟨u, hu, htrace, hstatus, hstatuses, hattached⟩ := sendByte_next b hd
    obtain ⟨t, sts, ht, hlen, htrace', hstatus', hlisted⟩ := ih hattached
    refine ⟨t, nextStatus s :: sts, ?_, congrArg (· + 1) hlen, ?_, ?_, fun answers rest h hlen => ?_⟩
    · rw [sendData, hu, andThen_next, ht]
    · rw [htrace', htrace, List.zipWith_cons_cons, List.flatten_cons, List.append_assoc]
    · rw [hstatus', hstatus]
      cases nextStatus s <;> split <;> simp_all [BitVec.or_assoc]
    · cases answers with
      | nil => cases hlen
      | cons st answers =>
        obtain ⟨rfl, hrest⟩ := hlisted answers rest (by rw [hstatuses, h]; rfl) (Nat.succ_inj.1 hlen)
        exact ⟨by rw [nextStatus_of_listed h], hrest⟩

/-- Settles O3: `sendData_next`, and the frame of transactions. -/
theorem sendDataSendsEveryByte : Obligations.SendDataSendsEveryByte := by
  intro bytes s hd hne
  obtain ⟨t, sts, ht, hlen, htrace, hstatus, hlisted⟩ := sendData_next bytes hd
  exact ⟨t, _, sts, ht, htrace, hlen, rfl, hstatus, hlisted, transactionFrame_sendData hne ht⟩

/-! ### Waits, pins, delays and devices -/

/-- Settles O6: the three cases of `waitBusy`. -/
theorem bwaitEndsUnderEitherOutcome : Obligations.BwaitEndsUnderEitherOutcome := fun _ =>
  ⟨fun hb => congrArg _ (waitBusy_of_ready hb),
    fun hb ho => ⟨_, _, congrArg _ (waitBusy_of_readySeen hb ho)⟩,
    fun hb ho => ⟨_, _, congrArg _ (waitBusy_of_timeout hb ho)⟩⟩

/-- Settles O7: each is its one event, and RSTSET the level. -/
theorem pinAndTimeMicroOperations : Obligations.PinAndTimeMicroOperations :=
  ⟨fun _ _ => rfl, fun _ _ => rfl⟩

/-- ATTACH where a device is attached (R187, U23). -/
theorem exec_attach_of_attached {s : State} (d : Device) (h : s.attached ≠ .none) :
    exec (.attach d) s = .fault .attachWhileAttached := if_neg h

/-- DETACH of a device that is not attached (R188, U23). -/
theorem exec_detach_of_ne {s : State} {d : Device} (h : s.attached ≠ Attached.ofDevice d) :
    exec (.detach d) s = .fault .detachNotAttached := if_neg h

/-- Settles O8: ATTACH with and without a device, DETACH of each device attached or not. -/
theorem attachAndDetachKeepOneDevice : Obligations.AttachAndDetachKeepOneDevice := fun _ =>
  ⟨fun h => ⟨exec_attach_of_none .cal h, exec_attach_of_none .wr h⟩,
    fun h d => exec_attach_of_attached d h,
    fun h => exec_detach_of_attached (d := .cal) h, fun h => exec_detach_of_attached (d := .wr) h,
    fun h => exec_detach_of_ne (d := .cal) h, fun h => exec_detach_of_ne (d := .wr) h⟩

/-! ### No transaction without a device -/

/-- A run that begins with a command byte stops there (R184). -/
theorem runInstrs_cmd_of_none {s : State} (h : s.attached = .none) (a : Byte) (rest : List Instr) :
    runInstrs (.cmd a :: rest) s = .fault .transactionWithoutDevice := by
  have hcmd : exec (.cmd a) s = .fault .transactionWithoutDevice := requireDevice_of_none h
  rw [runInstrs, hcmd, andThen_fault]

/-- The unit of every panel command begins with its command byte (R96). -/
theorem unitOps_of_panelCommand {i : Instr} (hi : i.isPanelCommand = true) (s : State) :
    ∃ a rest, unitOps s i = .cmd a :: rest := by
  cases i
  case tset | tsetEn | psr | border | vcom | dtm1 | dtm2 | pon | drf | pof | otpRead => exact ⟨_, _, rfl⟩
  all_goals exact absurd hi Bool.false_ne_true

/-- Settles O9: a micro-operation has no device, and a panel command stops at its command byte. -/
theorem busOperationsNeedADevice : Obligations.BusOperationsNeedADevice := by
  intro i s h hi
  rcases hi with ⟨a, rfl⟩ | ⟨b, rfl⟩ | ⟨src, rfl⟩ | rfl | hi
  · exact requireDevice_of_none h
  · rw [exec_dat]
    exact requireDevice_of_none h
  · exact requireDevice_of_none h
  · exact requireDevice_of_none h
  · have hpanel : ∀ j ∈ panelCommands, j.isPanelCommand = true := by decide
    have hp := hpanel i hi
    obtain ⟨a, rest, hops⟩ := unitOps_of_panelCommand hp s
    rw [exec_panelCommand hp, hops]
    exact runInstrs_cmd_of_none h a rest

/-! ### The block is never stuck -/

/-- A host operation has a next state wherever the invariant holds at rest (R38 item 3, R251 to R253). -/
theorem InvAtRest.exec_hostOp {s : State} (h : InvAtRest s) {i : Instr} (hi : i.isHostOp = true) :
    ∃ u, exec i s = .next u := by
  cases i
  case setup =>
    simp only [exec, execSetup, h.st, ne_eq, not_true_eq_false, if_false]
    split <;> exact ⟨_, rfl⟩
  case update =>
    cases hf : s.functional
    · exact ⟨s, by simp [exec, execUpdate, h.st, hf]⟩
    · obtain ⟨-, hfue, hparams⟩ := h.functionalReady hf
      exact ⟨Machine.updateStarts s, by simp [exec, execUpdate, h.st, hf, configOk_iff.2 ⟨hparams, hfue⟩]⟩
  case forceFull => exact ⟨_, if_neg (not_not_intro h.st)⟩
  all_goals exact absurd hi Bool.false_ne_true

/-- A state that moves no bus device has a next state for all it has to run, wherever a device is attached (R184). -/
theorem exec_of_mem_remaining {s : State} {i : Instr} (hd : s.attached ≠ .none) (hc : s.cfg.hookWf = true)
    (hidle : s.st ≠ .idle) (hcheck : s.st ≠ .setupCheck) (hfin : s.st ≠ .setupFin) (hi : i ∈ remaining s) :
    ∃ u, exec i s = .next u := by
  rcases mem_remaining hidle hi with
    (⟨a, rfl⟩ | ⟨b, rfl⟩ | ⟨src, rfl⟩) | rfl | rfl | ⟨-, ⟨l, rfl⟩ | ⟨d, rfl⟩⟩ | ⟨hq, -⟩ | ⟨hq, -⟩ | ⟨-, m, hm, rfl⟩
  · exact exec_hookable (m := .cmd a) hd rfl
  · exact exec_hookable (m := .dat b) hd rfl
  · exact exec_hookable (m := .bulk src) hd rfl
  · exact exec_hookable (m := .rd) hd rfl
  · exact exec_hookable (m := .bwait) hd rfl
  · exact ⟨_, rfl⟩
  · exact ⟨_, rfl⟩
  · exact absurd hq hcheck
  · exact absurd hq hfin
  · exact exec_hookable hd (hookable_of_mem hc hm)

/-- A step that is not refused has a next state if the instruction it fetches has one. -/
theorem exists_step {s : State} (hp : s.inp.placed = none) (hr : stepRefusal s = none)
    (he : ∀ i, fetch s = some i → ∃ u, exec i s = .next u) : ∃ t, step s = .next t := by
  cases hf : fetch s with
  | none => exact ⟨_, step_of_fetch_none hp hr hf⟩
  | some i =>
    obtain ⟨u, hu⟩ := he i hf
    exact ⟨_, step_of_fetch hp hr hf hu⟩

theorem InvAtRest.exists_step {s : State} (h : InvAtRest s) : ∃ t, step s = .next t :=
  Machine.exists_step h.unplaced (stepRefusal_eq_none.2 (.inl h.st)) fun _ hf =>
    h.exec_hostOp (isHostOp_of_decodeHost ((fetch_idle h.st).1 hf).2)

theorem InvInCycle.exists_step {s : State} (h : InvInCycle s) (hv : s.inp.hostcmdValid = false) :
    ∃ t, step s = .next t := by
  obtain ⟨hidle, -, hcheck, hfin, -⟩ := St.inCycle_ne h.st
  obtain ⟨hwr, -, hparams⟩ := h.ready
  exact Machine.exists_step h.unplaced (stepRefusal_eq_none.2 (.inr ⟨hv, hparams⟩)) fun _ hf =>
    exec_of_mem_remaining (by simp [hwr]) (config_wf_iff.1 h.config).1 hidle hcheck hfin (mem_remaining_of_fetch hf)

/-- A setup attaches CAL where no device is attached and detaches the device that is, and its reader runs with CAL
attached (R156, R158, R168). -/
theorem InvInSetup.exists_step {s : State} (h : InvInSetup s) (hv : s.inp.hostcmdValid = false) :
    ∃ t, step s = .next t := by
  have hparams := h.accepted.2
  have hd := h.device
  have standsAt {q : St} {n : Half} {a : Attached} (hq : s.st = q) (hn : s.sub = n) (ha : s.attached = a) :
      SetupAt q n a s := ⟨hq, hn, ha, hparams, hv, h.unplaced⟩
  have reader (hd : s.sub = 0 ∧ s.attached = .cal) (hcheck : s.st ≠ .setupCheck) (hfin : s.st ≠ .setupFin) :
      ∃ t, step s = .next t :=
    Machine.exists_step h.unplaced (stepRefusal_eq_none.2 (.inr ⟨hv, hparams⟩)) fun _ hf =>
      exec_of_mem_remaining (by simp [hd.2]) (config_wf_iff.1 h.config).1 (St.inSetup_ne h.st).1 hcheck hfin
        (mem_remaining_of_fetch hf)
  cases hq : s.st <;> rw [hq] at hd
  case setupCheck =>
    rcases hd with ⟨hn, -⟩ | ⟨hn, ha⟩ | ⟨hn, ha⟩
    · obtain ⟨t, -, e, -⟩ := (standsAt hq hn rfl).step_rstset
      exact ⟨t, e⟩
    · cases hdev : s.attached with
      | none =>
        obtain ⟨t, -, e, -⟩ := (standsAt hq hn hdev).step_attachCal (.inl rfl)
        exact ⟨t, e⟩
      | cal => exact absurd hdev ha
      | wr =>
        obtain ⟨t, -, e, -⟩ := SetupAt.step_detach (d := .wr) (standsAt hq hn hdev)
        exact ⟨t, e⟩
    · obtain ⟨t, -, e, -⟩ := (standsAt hq hn ha).step_attachCal (.inr rfl)
      exact ⟨t, e⟩
  case setupFin =>
    rcases hd with ⟨hn, ha⟩ | ⟨hn, ha⟩
    · obtain ⟨t, -, e, -⟩ := (standsAt hq hn ha).step_detachCal
      exact ⟨t, e⟩
    · exact ⟨_, (standsAt hq hn ha).step_attachWr⟩
  case otpCmd | otpDummy | otpProbe | otpSkip | otpData0 | otpData1 =>
    exact reader hd (by simp [hq]) (by simp [hq])
  all_goals exact nomatch (congrArg St.inSetup hq).symm.trans h.st

/-- Settles O48: at rest, in a setup and in a cycle, what is fetched has a next state. -/
theorem quietBlockIsNeverStuck : Obligations.QuietBlockIsNeverStuck := by
  intro s h hquiet
  have hq : s.st = .idle ∨ s.st.inSetup = true ∨ s.st.inCycle = true := by cases s.st <;> decide
  have hv (hidle : s.st ≠ .idle) : s.inp.hostcmdValid = false := by simpa using mt hquiet hidle
  rcases hq with hq | hq | hq
  · exact (h.atRest hq).exists_step
  · exact (h.inSetup hq).exists_step (hv (St.inSetup_ne hq).1)
  · exact (h.inCycle hq).exists_step (hv (St.inCycle_ne hq).1)

/-! ### How far the block is from rest -/

/-- The most steps from the start of a state to rest: one per micro-operation of the longest list of each state on
the way (R157, R158, R200, R203 to R214), 65535 for the discard reads (R162), and the completion step (R215). -/
def St.stepsToRest (c : Config) : St → Nat
  | .idle => 0
  | .setupFin => 2
  | .otpData1 => 3
  | .otpData0 => 4
  | .otpSkip => 65539
  | .otpProbe => 65540
  | .otpDummy => 65541
  | .otpCmd => 65542
  | .setupCheck => 65545
  | .waitBusy5 => 2
  | .powerOff => 4
  | .waitBusy4 => 5
  | .refresh => 7
  | .waitBusy3 => 8
  | .powerOn => 10
  | .waitBusy2 => 11
  | .transmittingFrame2 => 17
  | .transmittingFrame1 => 23
  | .configuring => c.preConfigHook.length + 34
  | .waitBusy1 => c.preConfigHook.length + 35
  | .hwReset => c.preConfigHook.length + 43

theorem St.stepsToRest_le (c : Config) (q : St) : q.stepsToRest c ≤ 65545 + c.preConfigHook.length := by
  cases q <;> simp only [St.stepsToRest] <;> omega

/-- Every state but Idle takes a step. -/
theorem St.stepsToRest_succ_lt (c : Config) {q : St} (hq : q ≠ .idle) : q.succ.stepsToRest c < q.stepsToRest c := by
  cases q
  case idle => exact absurd rfl hq
  all_goals simp only [St.stepsToRest, St.succ]; omega

/-- The failure step of the reader is a step forward (R167). -/
theorem St.stepsToRest_setupFin_le (c : Config) {q : St} (hq : q.reads = true) :
    St.setupFin.stepsToRest c ≤ q.succ.stepsToRest c := by
  revert hq
  cases q <;> simp [St.reads, St.stepsToRest, St.succ]

/-- `stepsToRest` has room for the whole list of a state. -/
theorem stateList_length_add_le (s : State) :
    (stateList s).length + s.st.succ.stepsToRest s.cfg ≤ s.st.stepsToRest s.cfg := by
  have hconf : (configuringOps s).length ≤ s.cfg.preConfigHook.length + 11 := by
    unfold configuringOps
    split <;> simp [unitOps, wr1, wr2]
  have hframe1 : (frame1Ops s).length ≤ 6 := by
    unfold frame1Ops
    split <;> simp [unitOps, wr1, wrf]
  have hframe2 : (frame2Ops s).length ≤ 6 := by
    unfold frame2Ops
    split <;> simp [unitOps, wr1, wrf]
  unfold stateList
  cases s.st <;> simp only [St.stepsToRest, St.succ, unitOps, commandOps, hwResetOps, twice, List.length_cons,
    List.length_nil] <;> omega

/-- How far the block has come in its state: SUB, and in OtpSkip, where SUB is no index (log entry 36), the
distance of OTP_SKIP from the most it can be. -/
def position (s : State) : Nat := if s.st = .otpSkip then 65535 - s.otpSkip.toNat else s.sub.toNat

/-- The most steps from a state in flight to rest; a list that is done still takes the step that leaves it (log
entry 12). -/
def stepsLeft (s : State) : Nat :=
  max (s.st.succ.stepsToRest s.cfg + 1) (s.st.stepsToRest s.cfg - position s)

theorem stepsLeft_pos (s : State) : 0 < stepsLeft s :=
  lt_of_lt_of_le (Nat.succ_pos _) (le_max_left _ _)

theorem stepsLeft_le_stepsToRest {s : State} (hs : s.st ≠ .idle) : stepsLeft s ≤ s.st.stepsToRest s.cfg :=
  max_le (St.stepsToRest_succ_lt s.cfg hs) (Nat.sub_le _ _)

theorem stepsLeft_le (s : State) : stepsLeft s ≤ 65600 + s.cfg.preConfigHook.length := by
  have h := s.st.stepsToRest_le s.cfg
  have h' := s.st.succ.stepsToRest_le s.cfg
  unfold stepsLeft
  omega

/-! ### Every step in flight brings it nearer to rest -/

/-- `t` is nearer to rest than `u` is, and nothing new is presented. -/
structure NearsRest (u t : State) : Prop where
  quiet : t.inp.hostcmdValid = u.inp.hostcmdValid
  nearer : t.st = .idle ∨ stepsLeft t < stepsLeft u

/-- Going on to the next state, or to one nearer to rest. -/
theorem NearsRest.of_enters {u t : State} (h : t.st.stepsToRest u.cfg ≤ u.st.succ.stepsToRest u.cfg)
    (hv : t.inp.hostcmdValid = u.inp.hostcmdValid := by rfl) (hc : t.cfg = u.cfg := by rfl) : NearsRest u t := by
  refine ⟨hv, or_iff_not_imp_left.2 fun hidle => ?_⟩
  calc stepsLeft t ≤ t.st.stepsToRest u.cfg := hc ▸ stepsLeft_le_stepsToRest hidle
    _ < u.st.succ.stepsToRest u.cfg + 1 := Nat.lt_succ_of_le h
    _ ≤ stepsLeft u := le_max_left _ _

/-- Going on to the next position of a state that has room for one more. -/
theorem NearsRest.of_position {u t : State} (hst : t.st = u.st) (hpos : position t = position u + 1)
    (hroom : position u + 1 + u.st.succ.stepsToRest u.cfg < u.st.stepsToRest u.cfg)
    (hv : t.inp.hostcmdValid = u.inp.hostcmdValid := by rfl) (hc : t.cfg = u.cfg := by rfl) : NearsRest u t := by
  refine ⟨hv, .inr ?_⟩
  unfold stepsLeft
  rw [hst, hc, hpos]
  omega

/-- SUB can count up once more, and the state has a step for it beside the one that leaves it. -/
def HasRoom (s : State) : Prop :=
  s.st ≠ .otpSkip ∧ s.sub.toNat + 1 < 65536 ∧
    s.sub.toNat + 1 + s.st.succ.stepsToRest s.cfg < s.st.stepsToRest s.cfg

theorem nearsRest_nextSub {u : State} (h : HasRoom u) : NearsRest u (nextSub u) := by
  obtain ⟨hst, hwrap, hroom⟩ := h
  have hpos : position u = u.sub.toNat := if_neg hst
  have hpos' : position (nextSub u) = (u.sub + 1).toNat := if_neg hst
  refine .of_position rfl ?_ (by rw [hpos]; exact hroom)
  rw [hpos', hpos, BitVec.toNat_add]
  exact Nat.mod_eq_of_lt hwrap

/-- From its third position on, SetupCheck has ATTACH CAL alone to run (R158). -/
theorem remaining_setupCheck_of_two_le {s : State} (hs : s.st = .setupCheck) (hsub : 2 ≤ s.sub.toNat) :
    remaining s = [.attach .cal] := by
  unfold remaining
  rw [hs]
  dsimp only
  unfold setupCheckOps
  split
  · omega
  · omega
  · rfl

/-- A state with two instructions still to run has room. -/
theorem hasRoom_of_remaining {s : State} {i j : Instr} {rest : List Instr} (hc : s.cfg.hookWf = true)
    (hidle : s.st ≠ .idle) (hskip : s.st ≠ .otpSkip) (hr : remaining s = i :: j :: rest) : HasRoom s := by
  by_cases hcheck : s.st = .setupCheck
  · have hsub : s.sub.toNat < 2 := by
      by_contra hge
      rw [remaining_setupCheck_of_two_le hcheck (Nat.not_lt.1 hge)] at hr
      cases hr
    refine ⟨hskip, by omega, ?_⟩
    rw [hcheck]
    show s.sub.toNat + 1 + 65542 < 65545
    omega
  · have hlen : s.sub.toNat + 2 ≤ (stateList s).length := by
      have h := congrArg List.length hr
      rw [remaining_eq_drop (by simp [hasStateList, hidle, hskip, hcheck]), List.length_drop] at h
      simp only [List.length_cons] at h
      omega
    have hbound := stateList_length_add_le s
    have hwrap := stateList_length_le s
    have hhook : s.cfg.preConfigHook.length < 32768 := by
      simp only [Config.hookWf, Bool.and_eq_true, decide_eq_true_eq] at hc
      exact hc.2
    exact ⟨hskip, by omega, by omega⟩

/-- Leaving a state; WaitBusy5, which the completion step leaves, at its one micro-operation (R214, R215). -/
theorem nearsRest_leave {u : State} (h5 : u.st = .waitBusy5 → u.sub = 0) : NearsRest u (leave u.st u) := by
  cases hq : u.st
  case waitBusy5 =>
    refine nearsRest_nextSub ?_
    rw [HasRoom, hq, h5 hq]
    exact ⟨by decide, by decide, by simp [St.stepsToRest, St.succ]⟩
  all_goals exact .of_enters (by rw [hq]; exact le_rfl)

theorem nearsRest_calibrationFails {u : State} (hu : u.st.reads = true) : NearsRest u (calibrationFails u) :=
  .of_enters (St.stepsToRest_setupFin_le u.cfg hu)

theorem nearsRest_afterRead {u : State} (hu : u.st.reads = true) (st : TxStatus) {good : State → State}
    (hg : NearsRest u (good u)) : NearsRest u (afterRead st good u) := by
  cases st
  · exact hg
  · exact .of_enters (St.stepsToRest_setupFin_le u.cfg hu)

theorem nearsRest_goto {u : State} {q : St} (hu : u.st = q) : NearsRest u (goto q.succ u) :=
  .of_enters (by rw [hu]; exact le_rfl)

theorem nearsRest_selectBank {u : State} (hu : u.st = .otpProbe) (p : Byte) :
    NearsRest u (goto .otpSkip (selectBank p u)) := by
  have h : St.otpSkip.stepsToRest u.cfg ≤ u.st.succ.stepsToRest u.cfg := by rw [hu]; exact le_rfl
  unfold selectBank
  split <;> exact .of_enters h

/-- A discard read counts OTP_SKIP down, and the last one leaves OtpSkip (R162). -/
theorem nearsRest_skipOne {u : State} (hu : u.st = .otpSkip) (hne : u.otpSkip ≠ 0) :
    NearsRest u (skipOne u) := by
  by_cases hlast : u.otpSkip - 1 = 0
  · rw [skipOne_of_zero hlast]
    exact .of_enters (by rw [hu]; exact le_rfl)
  · rw [skipOne_of_ne hlast]
    have hpos : position u = 65535 - u.otpSkip.toNat := if_pos hu
    have hpos' : position { u with otpSkip := u.otpSkip - 1 } = 65535 - (u.otpSkip - 1).toNat := if_pos hu
    have hcount : (u.otpSkip - 1).toNat + 1 = u.otpSkip.toNat := by bv_omega
    have hmore : (u.otpSkip - 1).toNat ≠ 0 := fun h => hlast (BitVec.toNat_inj.1 h)
    have hmax := u.otpSkip.isLt
    refine .of_position rfl (by omega) ?_
    rw [hu, hpos]
    show 65535 - u.otpSkip.toNat + 1 + 4 < 65539
    omega

theorem nearsRest_commit {u : State} (hu : u.st = .otpData1) (d : Byte) : NearsRest u (commit d u) := by
  unfold commit
  split
  · exact .of_enters (by rw [hu]; exact le_rfl)
  · exact nearsRest_calibrationFails (by rw [hu]; rfl)

/-- Going down a list, `u` being what the instruction of `s` left. -/
theorem nearsRest_advance {s u : State} {i : Instr} {rest : List Instr} (hm : MicroFrame s u)
    (hc : s.cfg.hookWf = true) (hidle : s.st ≠ .idle) (hskip : s.st ≠ .otpSkip) (hr : remaining s = i :: rest) :
    NearsRest u (advance s u) := by
  rw [advance_of_remaining hr]
  cases rest with
  | nil =>
    have hst : s.st = u.st := by rw [hm.fields]
    have hsub : s.st = .waitBusy5 → s.sub = 0 := fun h5 => by
      have hlen := congrArg List.length hr
      unfold remaining at hlen
      rw [h5] at hlen
      simp only [List.length_drop, List.length_cons, List.length_nil] at hlen
      exact BitVec.toNat_inj.1 (by show s.sub.toNat = 0; omega)
    rw [if_pos rfl, hst]
    refine nearsRest_leave ?_
    rw [hm.fields]
    exact hsub
  | cons j rest =>
    rw [if_neg (by simp)]
    have hroom := hasRoom_of_remaining hc hidle hskip hr
    refine nearsRest_nextSub ?_
    rw [hm.fields]
    exact hroom

/-- What follows the instruction that a state in flight fetched. -/
theorem nearsRest_sequence {s u : State} {i : Instr} (hm : MicroFrame s u) (hc : s.cfg.hookWf = true)
    (hidle : s.st ≠ .idle) (hf : fetch s = some i) : NearsRest u (sequence s u) := by
  obtain ⟨rest, hr⟩ : ∃ rest, remaining s = i :: rest := List.head?_eq_some_iff.1 hf
  have hst : u.st = s.st := by rw [hm.fields]
  have reads {q : St} (hq : s.st = q) (h : q.reads = true) : u.st.reads = true := by rw [hst, hq, h]
  unfold Machine.sequence
  split <;> rename_i hq
  · exact absurd hq hidle
  · split
    · exact nearsRest_goto (hst.trans hq)
    · exact nearsRest_calibrationFails (reads hq rfl)
  · exact nearsRest_afterRead (reads hq rfl) _ (nearsRest_goto (hst.trans hq))
  · exact nearsRest_afterRead (reads hq rfl) _ (nearsRest_selectBank (hst.trans hq) _)
  · have hne : u.otpSkip ≠ 0 := by
      rw [hm.fields]
      intro hz
      unfold remaining at hr
      rw [hq, show s.otpSkip = 0 from hz] at hr
      cases hr
    exact nearsRest_afterRead (reads hq rfl) _ (nearsRest_skipOne (hst.trans hq) hne)
  · refine nearsRest_afterRead (reads hq rfl) _ (.of_enters ?_)
    rw [hst, hq]
    exact le_rfl
  · exact nearsRest_afterRead (reads hq rfl) _ (nearsRest_commit (hst.trans hq) _)
  all_goals exact nearsRest_advance hm hc hidle (by rw [hq]; decide) hr

/-- The instruction before it changes nothing that `stepsLeft` counts. -/
theorem MicroFrame.nearsRest {s u t : State} (hm : MicroFrame s u) (h : NearsRest u t) : NearsRest s t := by
  rw [hm.fields] at h
  exact ⟨h.quiet, h.nearer⟩

/-- Every step in flight brings the block nearer to rest, whatever the environment answers. -/
theorem nearsRest_step {s t : State} (h : Inv s) (hidle : s.st ≠ .idle) (hstep : step s = .next t) :
    NearsRest s t := by
  rcases step_cases h.unplaced hstep with ⟨hs, -⟩ | ⟨hp, -⟩ | ⟨hp, -⟩ | ⟨hp, -⟩ |
    ⟨-, -, -, ⟨-, ⟨-, rfl⟩ | ⟨h5, rfl⟩⟩ | ⟨i, u, hf, -, -, hm, rfl⟩⟩
  · exact absurd hs hidle
  iterate 3 exact absurd hp.1 hidle
  · exact ⟨rfl, .inl rfl⟩
  · exact nearsRest_leave fun h => absurd h h5
  · exact hm.nearsRest (nearsRest_sequence hm (config_wf_iff.1 h.config).1 hidle hf)

/-- By induction on the bound: the block is at rest, or takes a step that brings `stepsLeft` down. -/
theorem runSteps_to_rest {n : Nat} {s : State} (h : Inv s) (hv : s.inp.hostcmdValid = false)
    (hn : stepsLeft s ≤ n) : ∃ k t, k ≤ n ∧ runSteps k s = .next t ∧ t.st = .idle := by
  induction n generalizing s with
  | zero => exact absurd (stepsLeft_pos s) (Nat.not_lt.2 hn)
  | succ n ih =>
    by_cases hidle : s.st = .idle
    · exact ⟨0, s, Nat.zero_le _, rfl, hidle⟩
    · obtain ⟨t, hstep⟩ := quietBlockIsNeverStuck s h fun hv' => nomatch hv'.symm.trans hv
      obtain ⟨hquiet, ht | hlt⟩ := nearsRest_step h hidle hstep
      · exact ⟨1, t, by omega, runSteps_of_step hstep 0, ht⟩
      · obtain ⟨k, t', hk, hrun, ht'⟩ := ih (stepKeepsTheInvariant s t h hstep) (hquiet.trans hv) (by omega)
        exact ⟨k + 1, t', by omega, (runSteps_of_step hstep k).trans hrun, ht'⟩

/-- Settles O49: `stepsLeft` bounds the steps to rest, and is itself bounded. -/
theorem everyOperationEnds : Obligations.EveryOperationEnds := fun s h hv =>
  runSteps_to_rest h hv (stepsLeft_le s)

end Sys2Proof.Machine

/-! PROOFS. Family 44_orchestrator: the acceptance steps of the host operations (R201, R251, R253), the order of the
states (R157, R200), HwReset and the completion step (R203, R215), and the trace of a whole cycle (R217).  A cycle
state runs its list one micro-operation a step (`OpsRun`); what each of them emits under every answer is `Emits`, and
the states between WaitBusy1 and WaitBusy5 are then run one after the other. -/

namespace Sys2Proof.Machine

/-! ### Acceptance of the host operations -/

/-- What an accepted or a failing SETUP leaves (R251). -/
theorem exec_setup_cases {s t : State} (h : exec .setup s = .next t) : t = setupStarts s ∨ t = setupAborts s := by
  have hs := idle_of_exec_hostOp rfl h
  simp only [exec, execSetup, hs, ne_eq, not_true_eq_false, if_false] at h
  split at h <;> cases h
  · exact .inl rfl
  · exact .inr rfl

/-- What an UPDATE leaves, functional or not (R201, R252). -/
theorem exec_update_cases {s t : State} (h : exec .update s = .next t) : t = s ∨ t = updateStarts s := by
  have hs := idle_of_exec_hostOp rfl h
  simp only [exec, execUpdate, hs, ne_eq, not_true_eq_false, if_false] at h
  split at h
  · cases h
    exact .inl rfl
  · split at h <;> cases h
    exact .inr rfl

/-- What a FORCE_FULL leaves (R253). -/
theorem eq_of_exec_forceFull {s t : State} (h : exec .forceFull s = .next t) : t = { s with counter := 0 } := by
  have hs := idle_of_exec_hostOp rfl h
  simp only [exec, execForceFull, hs, ne_eq, not_true_eq_false, if_false] at h
  cases h
  simp [hs]

/-- UPDATE accepted by a functional block (R201; R38 item 3). -/
theorem exec_update_of_functional {s : State} (hs : s.st = .idle) (hf : s.functional = true)
    (hc : s.cfg.configOk s.fue = true) : exec .update s = .next (updateStarts s) := by
  simp [exec, execUpdate, hs, hf, hc]

/-- UPDATE of a block that is not functional (R252). -/
theorem exec_update_of_not_functional {s : State} (hs : s.st = .idle) (hf : s.functional = false) :
    exec .update s = .next s := by
  simp [exec, execUpdate, hs, hf]

/-- An address that no entry of the memory has reads as unlisted. -/
theorem readByte_of_not_listed {m : Memory} {a : Nat} (h : ∀ c ∈ m, c.1 ≠ a) : readByte m a = unlistedByte := by
  induction m with
  | nil => rfl
  | cons c m ih =>
    rw [readByte, if_neg (h c (by simp))]
    exact ih fun d hd => h d (by simp [hd])

/-- A memory within a frame reads as unlisted beyond it. -/
theorem readByte_of_memoryWithin {n a : Nat} {m : Memory} (h : memoryWithin n m = true) (ha : n ≤ a) :
    readByte m a = unlistedByte :=
  readByte_of_not_listed fun c hc => ne_of_lt (lt_of_lt_of_le (memoryWithin_iff.1 h c hc) ha)

/-- UPDATE leaves CAL_FAIL and CONFIG_ERR as they are (R201). -/
theorem statusFlag_clearCycleStatus_eq {k : ErrKind} (hk : k = .calibration ∨ k = .configuration) (st : BitVec 4) :
    statusFlag (clearCycleStatus st) k = statusFlag st k := by
  revert st
  rcases hk with rfl | rfl <;> decide

/-- Settles O18: SETUP and FORCE_FULL store nothing, and UPDATE writes PF whole, beyond which nothing is listed. -/
theorem hostOperationsFrame : Obligations.HostOperationsFrame := by
  intro s t
  refine ⟨fun h => ?_, fun h => ?_, fun h => ?_⟩
  · rcases exec_setup_cases h with rfl | rfl <;> exact ⟨rfl, .of_eq rfl rfl rfl⟩
  · rcases exec_update_cases h with rfl | rfl
    · exact ⟨rfl, fun _ _ => rfl, fun _ => ⟨rfl, rfl⟩, fun _ _ _ => rfl⟩
    · refine ⟨rfl, fun k hk => statusFlag_clearCycleStatus_eq hk _, fun _ => ⟨rfl, rfl⟩, fun hw a ha => ?_⟩
      have hpf : readByte (updateStarts s).pf a = unlistedByte :=
        readByte_of_memoryWithin (memoryWithin_memoryOf _ _) ha
      rw [hpf, readByte_of_memoryWithin hw ha]
  · obtain rfl := eq_of_exec_forceFull h
    exact ⟨rfl, .of_eq rfl rfl rfl⟩

/-- Settles O21: `updateStarts` is R201's step, written out. -/
theorem updateAcceptanceStep : Obligations.UpdateAcceptanceStep := fun _ hs =>
  ⟨exec_update_of_not_functional hs, exec_update_of_functional hs⟩

/-! ### The order of the states -/

/-- Where a step in flight from the state `q` can go on to: `q` itself, its successor, or from the reader SetupFin
(R157, R167, R200). -/
def St.GoesTo (q q' : St) : Prop := q' = q ∨ q' = q.succ ∨ (q.reads = true ∧ q' = .setupFin)

theorem goesTo_leave (q : St) {u : State} (hu : u.st = q) : q.GoesTo (leave q u).st := by
  cases q
  case waitBusy5 => exact .inl hu
  all_goals exact .inr (.inl rfl)

theorem goesTo_advance {s u : State} (hu : u.st = s.st) : s.st.GoesTo (advance s u).st := by
  unfold advance
  split
  · exact goesTo_leave _ hu
  · exact .inl hu

theorem goesTo_afterRead {q : St} (hq : q.reads = true) (st : TxStatus) {good : State → State} {u : State}
    (hg : q.GoesTo (good u).st) : q.GoesTo (afterRead st good u).st := by
  cases st
  · exact hg
  · exact .inr (.inr ⟨hq, rfl⟩)

/-- What follows an instruction goes on in that order, whatever the environment answered. -/
theorem goesTo_sequence {s u : State} (hs : s.st ≠ .idle) (hu : u.st = s.st) :
    s.st.GoesTo (sequence s u).st := by
  unfold Machine.sequence
  split <;> rename_i hq
  · exact absurd hq hs
  · rw [hq]
    split
    · exact .inr (.inl rfl)
    · exact .inr (.inr ⟨rfl, rfl⟩)
  · rw [hq]
    exact goesTo_afterRead rfl _ (.inr (.inl rfl))
  · rw [hq]
    exact goesTo_afterRead rfl _ (.inr (.inl rfl))
  · rw [hq] at hu ⊢
    refine goesTo_afterRead rfl _ ?_
    unfold skipOne
    dsimp only
    split
    · exact .inr (.inl rfl)
    · exact .inl hu
  · rw [hq]
    exact goesTo_afterRead rfl _ (.inr (.inl rfl))
  · rw [hq]
    refine goesTo_afterRead rfl _ ?_
    unfold commit
    split <;> exact .inr (.inl rfl)
  all_goals exact goesTo_advance hu

/-- Every step from a state other than Idle goes on in that order, the completion step too (R215). -/
theorem goesTo_step {s t : State} (hp : s.inp.placed = none) (hs : s.st ≠ .idle) (hstep : step s = .next t) :
    s.st.GoesTo t.st := by
  cases stepCase_of_step hp hstep with
  | rest hidle => exact absurd hidle hs
  | setupAccepted hp | setupAborted hp | updateAccepted hp | forceFull hp => exact absurd hp.1 hs
  | completion hq =>
    rw [hq]
    exact .inr (.inl rfl)
  | flight _ h =>
    cases h with
    | leaves => exact goesTo_leave _ rfl
    | runs _ _ hm => exact goesTo_sequence hs (by rw [hm.fields])

theorem St.reads_of_inCycle {q : St} (h : q.inCycle = true) : q.reads = false := by
  revert h
  cases q <;> decide

/-- From a state of a cycle that order is R200's table. -/
theorem St.GoesTo.of_inCycle {q q' : St} (h : q.GoesTo q') (hc : q.inCycle = true) : q' = q ∨ q' = q.succ := by
  rcases h with h | h | ⟨hr, -⟩
  · exact .inl h
  · exact .inr h
  · exact nomatch hr.symm.trans (St.reads_of_inCycle hc)

/-- From a state of a setup it stays in the setup, or leaves it from SetupFin for Idle (R157, R168). -/
theorem St.GoesTo.of_inSetup {q q' : St} (h : q.GoesTo q') (hc : q.inSetup = true) :
    q'.inSetup = true ∨ (q = .setupFin ∧ q' = .idle) := by
  rcases h with rfl | rfl | ⟨-, rfl⟩
  · exact .inl hc
  · revert hc
    cases q <;> decide
  · exact .inl rfl

/-- R200's table lists every state of a cycle with its successor. -/
theorem mem_cycleOrder_of_inCycle : ∀ {q : St}, q.inCycle = true → (q, q.succ) ∈
    [(St.hwReset, St.waitBusy1), (.waitBusy1, .configuring), (.configuring, .transmittingFrame1),
     (.transmittingFrame1, .transmittingFrame2), (.transmittingFrame2, .waitBusy2),
     (.waitBusy2, .powerOn), (.powerOn, .waitBusy3), (.waitBusy3, .refresh), (.refresh, .waitBusy4),
     (.waitBusy4, .powerOff), (.powerOff, .waitBusy5), (.waitBusy5, .idle)] := by
  intro q
  cases q <;> decide

/-- An accepted UPDATE enters HwReset with INIT 0 and WaitBusy1 with INIT 1 (R202). -/
theorem updateStarts_st (s : State) : (updateStarts s).st = if s.init then .waitBusy1 else .hwReset := rfl

/-- Idle is left by an accepted SETUP or UPDATE only (R250, R251, R201). -/
theorem step_of_idle {s t : State} (hp : s.inp.placed = none) (hs : s.st = .idle) (hstep : step s = .next t) :
    t.st = .idle ∨ (t.st = .setupCheck ∧ Presented 0x01 s) ∨
      (t.st = .hwReset ∧ Presented 0x02 s ∧ s.functional = true ∧ s.init = false) ∨
      (t.st = .waitBusy1 ∧ Presented 0x02 s ∧ s.functional = true ∧ s.init = true) := by
  cases stepCase_of_step hp hstep with
  | rest => exact .inl hs
  | setupAccepted hp => exact .inr (.inl ⟨rfl, hp⟩)
  | setupAborted => exact .inl rfl
  | updateAccepted hp hf =>
    rw [withdrawHostcmd_st, updateStarts_st]
    cases hi : s.init
    · exact .inr (.inr (.inl ⟨rfl, hp, hf, rfl⟩))
    · exact .inr (.inr (.inr ⟨rfl, hp, hf, rfl⟩))
  | forceFull => exact .inl hs
  | completion hq => exact nomatch hs.symm.trans hq
  | flight hne => exact absurd hs hne

/-- Settles O41: in flight `goesTo_step`, at rest `step_of_idle`. -/
theorem statesFollowTheFixedOrder : Obligations.StatesFollowTheFixedOrder := by
  intro s t hp hstep
  refine ⟨fun hc => ?_, fun hs => step_of_idle hp hs hstep,
    fun hc => (goesTo_step hp (St.inSetup_ne hc).1 hstep).of_inSetup hc⟩
  rcases (goesTo_step hp (St.inCycle_ne hc).1 hstep).of_inCycle hc with hq | hq
  · exact .inl hq
  · rw [hq]
    exact .inr (mem_cycleOrder_of_inCycle hc)

/-! ### Running the list of a cycle state -/

/-- The instructions of a list run one after the other, SUB counting up between two of them: what a cycle state does
before it is left (R24). -/
inductive OpsRun : List Instr → State → State → Prop
  | last {i : Instr} {s u : State} (he : exec i s = .next u) : OpsRun [i] s u
  | more {i : Instr} {l : List Instr} {s u t : State} (he : exec i s = .next u) (h : OpsRun l (nextSub u) t) :
      OpsRun (i :: l) s t

/-- Going on in the list does not change it. -/
theorem stateList_nextSub {s u : State} (h : MicroFrame s u) : stateList (nextSub u) = stateList s :=
  stateList_microFrame h _

/-- After a micro-operation, the list still to run is the rest of it. -/
theorem remaining_nextSub {s u : State} {i : Instr} {rest : List Instr} (hl : hasStateList s.st = true)
    (hlen : (stateList s).length < 65536) (hr : remaining s = i :: rest) (hm : MicroFrame s u) :
    remaining (nextSub u) = rest := by
  have hst : u.st = s.st := by rw [hm.fields]
  have hsub : u.sub = s.sub := by rw [hm.fields]
  rw [remaining_eq_drop hl] at hr
  have hpos : s.sub.toNat < (stateList s).length := by
    by_contra hge
    rw [List.drop_of_length_le (Nat.not_lt.1 hge)] at hr
    cases hr
  have hnext : (s.sub + 1).toNat = s.sub.toNat + 1 := by
    rw [BitVec.toNat_add]
    exact Nat.mod_eq_of_lt (by show s.sub.toNat + 1 < 65536; omega)
  rw [remaining_eq_drop (by rw [nextSub_st, hst]; exact hl), stateList_nextSub hm, nextSub_sub, hsub, hnext,
    ← List.tail_drop, hr]
  rfl

/-- In flight no host operation has a next state, so what has one keeps the micro frame (R93). -/
theorem microFrame_exec_of_inFlight {s u : State} {i : Instr} (hs : s.st ≠ .idle) (he : exec i s = .next u) :
    MicroFrame s u := by
  refine microFrame_exec ?_ he
  by_contra hi
  exact hs (idle_of_exec_hostOp (by simpa using hi) he)

/-- A cycle state with `l` to run takes a step per instruction and is then left, by induction on `l`. -/
theorem runSteps_of_opsRun {l : List Instr} {s t : State} (h : OpsRun l s t) (hc : s.st.inCycle = true)
    (hv : s.inp.hostcmdValid = false) (hn : s.inp.placed = none) (hp : s.cfg.paramsOk = true)
    (hlen : (stateList s).length < 65536) (hr : remaining s = l) :
    runSteps l.length s = .next (leave s.st t) := by
  induction h with
  | last he =>
    have hstep := step_of_remaining hc hv hn hp hr he
    rw [if_pos rfl] at hstep
    exact runSteps_of_step hstep 0
  | @more i l s u t he h ih =>
    have hm := microFrame_exec_of_inFlight (St.inCycle_ne hc).1 he
    have hstep := step_of_remaining hc hv hn hp hr he
    rw [if_neg (by cases h <;> simp)] at hstep
    have hr' := remaining_nextSub (hasStateList_of_inCycle hc) hlen hr hm
    rw [← stateList_nextSub hm] at hlen
    have hst : (nextSub u).st = s.st := by rw [hm.fields]; rfl
    rw [List.length_cons, runSteps_of_step hstep, ih (by rw [hst]; exact hc) (by rw [hm.fields]; exact hv)
      (by rw [hm.fields]; exact hn) (by rw [hm.fields]; exact hp) hlen hr', hst]

/-- Settles O39: the eight micro-operations one after the other, and `leave` sets INIT. -/
theorem hwResetSequence : Obligations.HwResetSequence := by
  intro s hs hsub hp hv hn
  have hl : stateList s = hwResetOps s.cfg.tRst := by unfold stateList; rw [hs]
  have hr : remaining s = hwResetOps s.cfg.tRst := by
    rw [remaining_eq_drop (by rw [hs]; rfl), hl, hsub]
    rfl
  have hops : OpsRun (hwResetOps s.cfg.tRst) s _ :=
    .more rfl (.more rfl (.more rfl (.more rfl (.more rfl (.more rfl (.more rfl (.last rfl)))))))
  refine (runSteps_of_opsRun hops (by rw [hs]; rfl) hv hn hp (by simp [hl, hwResetOps]) hr).trans ?_
  rw [hs]
  simp [leave, goto, nextSub, emit]

/-! ### The completion step -/

/-- WaitBusy5 with its wait done completes the cycle (R214, R215; log entry 12). -/
theorem step_of_completion {s : State} (hs : s.st = .waitBusy5) (hsub : s.sub = 1) (hp : s.cfg.paramsOk = true)
    (hv : s.inp.hostcmdValid = false) (hn : s.inp.placed = none) : step s = .next (complete s) := by
  have hf : fetch s = none := by
    rw [fetch, remaining_eq_drop (by rw [hs]; rfl), hsub]
    unfold stateList
    rw [hs]
    rfl
  rw [step_of_fetch_none hn (stepRefusal_eq_none.2 (.inr ⟨hv, hp⟩)) hf]
  unfold bookkeep
  rw [hs]

/-- Settles O40: `step_of_completion`, whose addition is that of a 32-bit word. -/
theorem completionRecordsAndCounts : Obligations.CompletionRecordsAndCounts := fun s hs hsub hp hv hn =>
  ⟨s.counter + 1, BitVec.toNat_add _ _, step_of_completion hs hsub hp hv hn⟩

/-! ### What a micro-operation of a cycle emits -/

/-- From `s` to `t` under some answer of the environment: nothing has changed but the pc, STATUS, the answers still to
come and the trace, which has grown by events that erase to `es` (R216). -/
structure Emits (es : List Event) (s t : State) : Prop where
  fields : t = { s with
    st := t.st, sub := t.sub, status := t.status, trace := t.trace,
    inp := { s.inp with
      statuses := t.inp.statuses, waitOutcomes := t.inp.waitOutcomes, draws := t.inp.draws } }
  trace : ∃ evs, t.trace = s.trace ++ evs ∧ erased evs = es

theorem Emits.refl (s : State) : Emits [] s s := ⟨rfl, [], (List.append_nil _).symm, rfl⟩

theorem Emits.trans {es es' : List Event} {s t u : State} (h : Emits es s t) (h' : Emits es' t u) :
    Emits (es ++ es') s u := by
  obtain ⟨evs, ht, he⟩ := h.trace
  obtain ⟨evs', ht', he'⟩ := h'.trace
  refine ⟨?_, evs ++ evs', ?_, ?_⟩
  · rw [h'.fields, h.fields]
  · rw [ht', ht, List.append_assoc]
  · rw [erased_append, he, he']

/-- The pc is free to move. -/
theorem Emits.withPc {es : List Event} {s t : State} (h : Emits es s t) (q : St) (n : Half) :
    Emits es s { t with st := q, sub := n } := ⟨by rw [h.fields], h.trace⟩

/-- The event of a transaction that sends, or of a wait, erased; other instructions emit other events or none. -/
def opEvent (s : State) : Instr → Option Event
  | .cmd a => some (evCmd a)
  | .dat b => some (evDat b)
  | .bulk src => some (evBulk (framePayload s src))
  | .bwait => some evBwait
  | _ => none

/-- A transaction that sends, DC at its rest level before it, emits its event under either status (R180 to R182). -/
theorem emits_sendTransaction {l : DcLevel} {ev : DcLevel → TxStatus → Event} {e : Event} {s : State}
    (hdc : s.dc = .data) (hev : ∀ st, (ev l st).erase = some e) : Emits [e] s (sendTransaction l ev s) := by
  refine ⟨?_, erased_sendTransaction hev s⟩
  cases h : nextStatus s
  · rw [sendTransaction_of_ok h, ← hdc]
    rfl
  · rw [sendTransaction_of_err h, ← hdc]
    rfl

/-- A wait emits its event under either outcome (R185). -/
theorem emits_waitBusy (s : State) : Emits [evBwait] s (waitBusy s) := by
  obtain ⟨st, w, n, evs, h, -, he⟩ := waitBusy_cases s
  rw [h]
  exact ⟨rfl, evs, rfl, he⟩

/-- Each of them has a next state and emits its event, under every answer. -/
theorem emits_exec {s : State} {i : Instr} {e : Event} (hd : s.attached ≠ .none) (hdc : s.dc = .data)
    (he : opEvent s i = some e) : ∃ u, exec i s = .next u ∧ Emits [e] s u := by
  cases i
  case cmd a =>
    cases he
    exact ⟨_, requireDevice_of_attached hd, emits_sendTransaction hdc fun _ => rfl⟩
  case dat b =>
    cases he
    exact ⟨_, (exec_dat b s).trans (requireDevice_of_attached hd), emits_sendTransaction hdc fun _ => rfl⟩
  case bulk src =>
    cases he
    exact ⟨_, requireDevice_of_attached hd, emits_sendTransaction hdc fun _ => rfl⟩
  case bwait =>
    cases he
    exact ⟨_, rfl, emits_waitBusy s⟩
  all_goals cases he

/-- The event of an instruction is the same before and after. -/
theorem Emits.opEvent_eq {es : List Event} {s t : State} (h : Emits es s t) : opEvent t = opEvent s := by
  rw [h.fields]
  funext i
  cases i
  case bulk src => cases src <;> rfl
  all_goals rfl

/-- A list of them runs to its end and emits their events, under every answer: by induction on the list. -/
theorem opsRun_emits {l : List Instr} {s : State} (hne : l ≠ []) (hd : s.attached ≠ .none) (hdc : s.dc = .data)
    (hl : ∀ i ∈ l, (opEvent s i).isSome) : ∃ t, OpsRun l s t ∧ Emits (l.filterMap (opEvent s)) s t := by
  induction l generalizing s with
  | nil => exact absurd rfl hne
  | cons i l ih =>
    obtain ⟨e, he⟩ := Option.isSome_iff_exists.1 (hl i (by simp))
    obtain ⟨u, hu, hemits⟩ := emits_exec hd hdc he
    rw [List.filterMap_cons_some he]
    cases l with
    | nil => exact ⟨u, .last hu, hemits⟩
    | cons j l =>
      have hnext : Emits [e] s (nextSub u) := hemits.withPc u.st (u.sub + 1)
      obtain ⟨t, hrun, hemits'⟩ := ih (s := nextSub u) (by simp) (by rw [hnext.fields]; exact hd)
        (by rw [hnext.fields]; exact hdc) fun k hk => by rw [hnext.opEvent_eq]; exact hl k (by simp [hk])
      rw [hnext.opEvent_eq] at hemits'
      exact ⟨t, .more hu hrun, hnext.trans hemits'⟩

/-! ### The states of a cycle one after the other -/

/-- The events of the state `q` in a cycle with the registers of `s`, erased (R205 to R214). -/
def stateEvents (s : State) (q : St) : List Event := (stateList { s with st := q }).filterMap (opEvent s)

theorem Emits.stateEvents_eq {es : List Event} {s t : State} (h : Emits es s t) (q : St) :
    stateEvents t q = stateEvents s q := by
  unfold stateEvents
  rw [h.opEvent_eq, h.fields]
  cases q <;> rfl

/-- The block stands at the start of the state `q` of a cycle as R200 reaches it: WR attached, an accepted
configuration with the empty hook, nothing presented or placed. -/
structure CycleAt (q : St) (s : State) : Prop where
  st : s.st = q
  sub : s.sub = 0
  device : s.attached = .wr
  dc : s.dc = .data
  params : s.cfg.paramsOk = true
  hook : s.cfg.preConfigHook = []
  quiet : s.inp.hostcmdValid = false
  unplaced : s.inp.placed = none

/-- Going on to the next state with nothing but the pc, STATUS, the answers and the trace moved. -/
theorem CycleAt.of_emits {es : List Event} {q q' : St} {s t : State} (h : CycleAt q s) (he : Emits es s t) :
    CycleAt q' { t with st := q', sub := 0 } := by
  rw [he.fields]
  exact { h with st := rfl, sub := rfl }

/-- Every micro-operation of a cycle after HwReset is a transaction that sends, or a wait. -/
theorem isSome_opEvent_of_mem_stateList {s : State} {i : Instr} (hhook : s.cfg.preConfigHook = [])
    (hc : s.st.inCycle = true) (hreset : s.st ≠ .hwReset) (hi : i ∈ stateList s) : (opEvent s i).isSome := by
  have unit {j : Instr} (hi : i ∈ unitOps s j) : (opEvent s i).isSome := by
    rcases mem_unitOps hi with ⟨a, rfl⟩ | ⟨b, rfl⟩ | ⟨src, rfl⟩ <;> rfl
  have sentTwice {a : Byte} (hi : i ∈ twice a) : (opEvent s i).isSome := by
    rw [mem_twice hi]
    rfl
  have wait (hi : i ∈ [Instr.bwait]) : (opEvent s i).isSome := by
    rw [List.mem_singleton.1 hi]
    rfl
  unfold stateList at hi
  cases hq : s.st <;> rw [hq] at hi hc hreset
  case hwReset => exact absurd rfl hreset
  case waitBusy1 | waitBusy2 | waitBusy3 | waitBusy4 | waitBusy5 => exact wait hi
  case powerOn | refresh | powerOff => exact sentTwice hi
  case configuring =>
    rcases mem_configuringOps hi with ⟨m, hm, -⟩ | ⟨j, hj⟩
    · rw [hhook] at hm
      cases hm
    · exact unit hj
  case transmittingFrame1 =>
    obtain ⟨j, hj⟩ := mem_frame1Ops hi
    exact unit hj
  case transmittingFrame2 =>
    obtain ⟨j, hj⟩ := mem_frame2Ops hi
    exact unit hj
  all_goals cases hc

/-- No state of a cycle has an empty list. -/
theorem stateList_ne_nil {s : State} (hc : s.st.inCycle = true) : stateList s ≠ [] := by
  unfold stateList
  cases hq : s.st <;> rw [hq] at hc
  case configuring => simp [configuringOps, unitOps, wr1]
  case transmittingFrame1 => simp [frame1Ops, unitOps, wrf]
  case transmittingFrame2 => simp [frame2Ops, unitOps, wrf]
  case hwReset | waitBusy1 | waitBusy2 | waitBusy3 | waitBusy4 | waitBusy5 | powerOn | refresh | powerOff =>
    exact List.cons_ne_nil _ _
  all_goals cases hc

/-- One step per event of `es`, from `s` to `t`. -/
def Runs (es : List Event) (s t : State) : Prop := runSteps es.length s = .next t ∧ Emits es s t

theorem Runs.trans {es es' : List Event} {s t u : State} (h : Runs es s t) (h' : Runs es' t u) :
    Runs (es ++ es') s u :=
  ⟨by rw [List.length_append, runSteps_of_runSteps h.1, h'.1], h.2.trans h'.2⟩

/-- The states of a cycle whose list is all they do: not HwReset, which sets INIT, nor WaitBusy5, which the completion
step leaves (R203, R215). -/
def St.isPlain (q : St) : Bool := q.inCycle && decide (q ≠ .hwReset ∧ q ≠ .waitBusy5)

theorem leave_of_isPlain {q : St} (h : q.isPlain = true) : leave q = goto q.succ := by
  revert h
  cases q
  case waitBusy1 | configuring | transmittingFrame1 | transmittingFrame2 | waitBusy2 | powerOn | waitBusy3 | refresh
    | waitBusy4 | powerOff => exact fun _ => rfl
  all_goals exact fun h => absurd h (by decide)

/-- A plain state emits its events, a step for each, and goes on to its successor. -/
theorem CycleAt.runs {q : St} {s : State} (h : CycleAt q s) (hq : q.isPlain = true) :
    ∃ t, Runs (stateEvents s q) s t ∧ CycleAt q.succ t := by
  obtain rfl := h.st
  obtain ⟨hc, hreset, -⟩ : s.st.inCycle = true ∧ s.st ≠ .hwReset ∧ s.st ≠ .waitBusy5 := by
    simpa [St.isPlain] using hq
  have hsome (i : Instr) (hi : i ∈ stateList s) := isSome_opEvent_of_mem_stateList h.hook hc hreset hi
  have hsteps : (stateEvents s s.st).length = (stateList s).length := List.filterMap_length_eq_length.2 hsome
  have hlen : (stateList s).length < 65536 :=
    lt_of_le_of_lt (stateList_length_le s) (by rw [h.hook]; decide)
  have hr : remaining s = stateList s := by
    rw [remaining_eq_drop (hasStateList_of_inCycle hc), h.sub]
    rfl
  obtain ⟨u, hrun, hemits⟩ := opsRun_emits (stateList_ne_nil hc) (by rw [h.device]; decide) h.dc hsome
  have hsucc := runSteps_of_opsRun hrun hc h.quiet h.unplaced h.params hlen hr
  rw [← hsteps, leave_of_isPlain hq] at hsucc
  exact ⟨goto s.st.succ u, ⟨hsucc, hemits.withPc _ _⟩, h.of_emits hemits⟩

/-- The next `k` states run one after the other, if they are all plain: by induction on `k`. -/
theorem CycleAt.runs_iterate (k : Nat) {q : St} {s : State} (h : CycleAt q s)
    (hq : ∀ p ∈ List.iterate St.succ q k, p.isPlain = true) :
    ∃ t, Runs ((List.iterate St.succ q k).flatMap (stateEvents s)) s t ∧ CycleAt (St.succ^[k] q) t := by
  induction k generalizing q s with
  | zero => exact ⟨s, ⟨rfl, .refl s⟩, h⟩
  | succ k ih =>
    obtain ⟨u, hrun, hu⟩ := h.runs (hq q (List.mem_cons_self ..))
    obtain ⟨t, hrun', ht⟩ := ih hu fun p hp => hq p (List.mem_cons_of_mem _ hp)
    rw [funext hrun.2.stateEvents_eq] at hrun'
    exact ⟨t, hrun.trans hrun', ht⟩

/-! ### A whole cycle -/

/-- The acceptance step of an UPDATE (R201; log entry 9). -/
theorem step_of_presented_update {s : State} (hn : s.inp.placed = none) (hp : Presented 0x02 s)
    (hf : s.functional = true) (hc : s.cfg.configOk s.fue = true) :
    step s = .next (withdrawHostcmd (updateStarts s)) := by
  obtain ⟨hs, hv, hcode⟩ := hp
  have hfetch : fetch s = some .update := (fetch_idle hs).2 ⟨hv, decodeHost_eq_ok.2 (.inr (.inl ⟨hcode, rfl⟩))⟩
  rw [step_of_fetch hn (stepRefusal_eq_none.2 (.inl hs)) hfetch (exec_update_of_functional hs hf hc)]
  unfold Machine.sequence
  rw [hs]

/-- The events of the hardware reset in a cycle that starts with this INIT (R202, R217). -/
def resetEvents (c : Config) (init : Bool) : List Event := if init then [] else hwResetTrace c.tRst

/-- The block at the start of WaitBusy1, in the cycle that an UPDATE accepted in `s` has begun (R201, R203). -/
def cycleStart (s : State) : State :=
  { s with
    st := .waitBusy1, sub := 0, rst := .high, init := true, status := clearCycleStatus s.status,
    pf := rot s.cfg s.inp.lf, mode := modeSel s.counter s.fue,
    tcode := tempCode s.cfg s.inp.temp (modeSel s.counter s.fue),
    trace := s.trace ++ resetEvents s.cfg s.init, inp := { s.inp with hostcmdValid := false } }

/-- Acceptance, and the hardware reset where INIT is 0. -/
theorem runSteps_to_cycleStart {s : State} (h : InvAtRest s) (hp : Presented 0x02 s) (hf : s.functional = true) :
    runSteps ((resetEvents s.cfg s.init).length + 1) s = .next (cycleStart s) := by
  obtain ⟨-, hfue, hparams⟩ := h.functionalReady hf
  rw [runSteps_of_step (step_of_presented_update h.unplaced hp hf (configOk_iff.2 ⟨hparams, hfue⟩))]
  cases hi : s.init
  · have hst : (withdrawHostcmd (updateStarts s)).st = .hwReset := by simp [updateStarts_st, hi]
    refine (hwResetSequence _ hst rfl hparams rfl h.unplaced).trans ?_
    simp [cycleStart, resetEvents, hi, hwResetTrace, updateStarts]
  · simp [runSteps, cycleStart, resetEvents, hi, updateStarts, withdrawHostcmd, goto, h.rst]

theorem cycleAt_cycleStart {s : State} (h : InvAtRest s) (hf : s.functional = true)
    (hhook : s.cfg.preConfigHook = []) : CycleAt .waitBusy1 (cycleStart s) := by
  obtain ⟨hdevice, -, hparams⟩ := h.functionalReady hf
  exact ⟨rfl, rfl, hdevice, h.dc, hparams, hhook, rfl, h.unplaced⟩

/-- WaitBusy5 waits, and then the cycle is completed (R214, R215). -/
theorem CycleAt.runSteps_waitBusy5 {s : State} (h : CycleAt .waitBusy5 s) :
    runSteps 2 s = .next (complete (waitBusy s)) := by
  have hc : s.st.inCycle = true := by rw [h.st]; rfl
  have hr : remaining s = [.bwait] := by
    unfold remaining
    rw [h.st, h.sub]
    rfl
  have hwait := step_of_remaining hc h.quiet h.unplaced h.params hr (u := waitBusy s) rfl
  rw [if_pos rfl, h.st] at hwait
  have hcomplete : step (nextSub (waitBusy s)) = .next (complete (waitBusy s)) := by
    have hm := (microFrame_waitBusy s).1.fields
    refine step_of_completion ?_ ?_ ?_ ?_ ?_ <;> rw [hm]
    · exact h.st
    · rw [nextSub, h.sub]
      rfl
    · exact h.params
    · exact h.quiet
    · exact h.unplaced
  exact (runSteps_of_step hwait 1).trans (runSteps_of_step hcomplete 0)

/-- The events of a cycle from WaitBusy1 on, with the registers of `s`, erased. -/
def cycleEvents (s : State) : List Event :=
  (List.iterate St.succ .waitBusy1 10).flatMap (stateEvents s) ++ [evBwait]

/-- A cycle from WaitBusy1 on: a step per event, and the completion step. -/
theorem CycleAt.runSteps_to_rest {s : State} (h : CycleAt .waitBusy1 s) :
    ∃ t, Emits (cycleEvents s) s t ∧ runSteps ((cycleEvents s).length + 1) s = .next (complete t) := by
  obtain ⟨u, hrun, hu⟩ := h.runs_iterate 10 (by decide)
  refine ⟨waitBusy u, hrun.2.trans (emits_waitBusy u), ?_⟩
  rw [cycleEvents, List.length_append, Nat.add_assoc, runSteps_of_runSteps hrun.1]
  exact CycleAt.runSteps_waitBusy5 hu

section

variable {s : State}

/-- The settings, with BORDER and VCOM around PSR where the variant has them there (R205, R217). -/
theorem stateEvents_configuring (hhook : s.cfg.preConfigHook = []) : stateEvents s .configuring =
    [evCmd s.cfg.addrs.tset, evDat s.tcode, evCmd s.cfg.addrs.tsetEn, evDat s.cfg.tsetEnValue] ++
    (if borderAroundPsr s.mode s.cfg.bvv then [evCmd s.cfg.addrs.border, evDat s.cfg.borderValue] else []) ++
    [evCmd s.cfg.addrs.psr, evDat (psrTx s).byte0, evDat (psrTx s).byte1] ++
    (if borderAroundPsr s.mode s.cfg.bvv then [evCmd s.cfg.addrs.vcom, evDat s.cfg.vcomValue] else []) := by
  simp only [stateEvents, stateList, configuringOps, hhook]
  split <;> rfl

/-- Frame 1, with two BORDERs before it where the variant has them there (R206, R217). -/
theorem stateEvents_transmittingFrame1 : stateEvents s .transmittingFrame1 =
    (if borderAroundFrames s.mode s.cfg.bvv then
      [evCmd s.cfg.addrs.border, evDat s.cfg.borderValue, evCmd s.cfg.addrs.border, evDat s.cfg.borderValue]
      else []) ++
    [evCmd s.cfg.addrs.dtm1, evBulk (frameOf s.cfg.frameBytes s.pf)] := by
  simp only [stateEvents, stateList, frame1Ops]
  split <;> rfl

/-- Frame 2, with two VCOMs after it where the variant has them there (R207, R217). -/
theorem stateEvents_transmittingFrame2 : stateEvents s .transmittingFrame2 =
    [evCmd s.cfg.addrs.dtm2, evBulk (framePayload s (frame2Src s))] ++
    (if borderAroundFrames s.mode s.cfg.bvv then
      [evCmd s.cfg.addrs.vcom, evDat s.cfg.vcomValue, evCmd s.cfg.addrs.vcom, evDat s.cfg.vcomValue]
      else []) := by
  simp only [stateEvents, stateList, frame2Ops]
  split <;> rfl

/-- The waits and the power commands are the same in every mode (R217). -/
theorem cycleEvents_eq_append : cycleEvents s =
    evBwait :: (stateEvents s .configuring ++ stateEvents s .transmittingFrame1 ++ stateEvents s .transmittingFrame2 ++
      powerTrace s.cfg.addrs) := by
  simp only [cycleEvents, List.iterate, List.flatMap_cons, List.flatMap_nil, List.append_assoc]
  rfl

/-- They are R217's of the mode and the variant, a Fast cycle having a frame recorded. -/
theorem cycleEvents_eq_cycleTrace (hhook : s.cfg.preConfigHook = []) (hbvv : s.cfg.bvv ≠ .other)
    (hv : s.mode = .fast → s.histValid = true) :
    cycleEvents s = cycleTrace s.cfg true s.mode s.tcode (psrTx s).byte0 (psrTx s).byte1
      (frameOf s.cfg.frameBytes s.pf) (frameOf s.cfg.frameBytes s.hf) := by
  rw [cycleEvents_eq_append, stateEvents_configuring hhook, stateEvents_transmittingFrame1,
    stateEvents_transmittingFrame2, framePayload_frame2Src]
  cases hm : s.mode
  · rfl
  · rw [hv hm]
    unfold cycleTrace
    cases hb : s.cfg.bvv
    case other => exact absurd hb hbvv
    all_goals rfl

end

/-- The length of R217's traces, a Fast cycle having INIT 1 (R202). -/
theorem length_cycleTrace {c : Config} (hbvv : c.bvv ≠ .other) {init : Bool} {mode : Mode} {t p0 p1 : Byte}
    {pf hf : List Byte} : (mode = .fast → init = true) →
    (cycleTrace c init mode t p0 p1 pf hf).length = (match mode, c.bvv with
      | .full, _ => if init then 22 else 30
      | .fast, .b => 30
      | .fast, _ => 26) := by
  intro hi
  cases mode
  · cases init <;> rfl
  · rw [hi rfl]
    unfold cycleTrace
    cases hb : c.bvv
    case other => exact absurd hb hbvv
    all_goals rfl

/-- R217's trace is the hardware reset, and the trace without it. -/
theorem cycleTrace_eq_append (c : Config) (init : Bool) (mode : Mode) (t p0 p1 : Byte) (pf hf : List Byte) :
    cycleTrace c init mode t p0 p1 pf hf = resetEvents c init ++ cycleTrace c true mode t p0 p1 pf hf := rfl

/-- An accepted configuration has one of the two variants (R255). -/
theorem bvv_ne_other_of_paramsOk {c : Config} (h : c.paramsOk = true) : c.bvv ≠ .other := by
  simp only [Config.paramsOk, Bool.and_eq_true, decide_eq_true_eq] at h
  tauto

theorem erased_resetEvents (c : Config) (init : Bool) : erased (resetEvents c init) = resetEvents c init := by
  cases init <;> rfl

/-- Settles O42: acceptance and the hardware reset, then the states from WaitBusy1 to rest. -/
theorem cycleEmitsItsTrace : Obligations.CycleEmitsItsTrace := by
  rintro s _ _ _ _ hinv hpres hf hhook rfl rfl rfl rfl
  have hrest := hinv.atRest hpres.1
  obtain ⟨-, -, hparams⟩ := hrest.functionalReady hf
  have hbvv := bvv_ne_other_of_paramsOk hparams
  have hfast : modeSel s.counter s.fue = .fast → s.histValid = true := histValid_of_modeSel_fast hrest.uncounted
  have hinit : modeSel s.counter s.fue = .fast → s.init = true := fun hm => (hrest.recorded (hfast hm)).1
  have hstart := runSteps_to_cycleStart hrest hpres hf
  obtain ⟨u, hemits, hrun⟩ := (cycleAt_cycleStart hrest hf hhook).runSteps_to_rest
  rw [cycleEvents_eq_cycleTrace (s := cycleStart s) hhook hbvv hfast] at hemits hrun
  obtain ⟨evs, htrace, herased⟩ := hemits.trace
  refine ⟨complete u, resetEvents s.cfg s.init ++ evs, ?_, ?_, ?_, ?_, hinit, length_cycleTrace hbvv hinit⟩
  · rw [cycleTrace_eq_append, List.length_append, Nat.add_add_add_comm _ _ 1 1, runSteps_of_runSteps hstart]
    exact hrun
  · exact htrace.trans (List.append_assoc _ _ _)
  · rw [erased_append, herased, erased_resetEvents, cycleTrace_eq_append s.cfg s.init]
    rfl
  · rw [hemits.fields]
    simp [complete, cycleStart, hrest.st, hrest.sub, hrest.rst, goto, record]

end Sys2Proof.Machine

/-! PROOFS. Family 45_history: `previous()` (R241).  Its frame source is HF or ZF by
HIST_VALID; what the payload of a source is, the transactions' lemmas say. -/

namespace Sys2Proof.Machine

/-- Once a frame has been recorded, `previous()` is the frame HF holds (R241). -/
theorem previous_of_histValid {s : State} (h : s.histValid = true) : previous s = framePayload s .hf := by
  rw [previous, previousSrc, if_pos h]

/-- Before any frame has been recorded, `previous()` is the zero frame (R63, R241). -/
theorem previous_of_not_histValid {s : State} (h : s.histValid = false) : previous s = framePayload s .zf := by
  rw [previous, previousSrc, h, if_neg Bool.false_ne_true]

/-- Settles O43: the payload of HF, byte for byte, or that of ZF. -/
theorem previousIsTheLastRecordedFrame : Obligations.PreviousIsTheLastRecordedFrame := by
  intro s
  refine ⟨fun h => ?recorded, fun h => ?unrecorded⟩
  case recorded =>
    rw [previous_of_histValid h]
    exact ⟨frameOf_length _ _, fun _ ha => framePayload_getElem? s .hf ha⟩
  case unrecorded =>
    rw [previous_of_not_histValid h]
    exact frameOf_nil _

end Sys2Proof.Machine

/-! PROOFS. Family 46_host_ops: the acceptance steps of SETUP (R251) and FORCE_FULL (R253), and CONFIG_OK (R255). -/

namespace Sys2Proof.Machine

/-! ### Acceptance of SETUP and FORCE_FULL -/

/-- SETUP accepted in Idle under CONFIG_OK (R251). -/
theorem exec_setup_of_configOk {s : State} (hs : s.st = .idle) (hc : s.cfg.configOk s.inp.fullUpdateEvery = true) :
    exec .setup s = .next (setupStarts s) := by
  simp [exec, execSetup, hs, hc]

/-- SETUP in Idle without CONFIG_OK (R251, R275). -/
theorem exec_setup_of_not_configOk {s : State} (hs : s.st = .idle)
    (hc : s.cfg.configOk s.inp.fullUpdateEvery = false) : exec .setup s = .next (setupAborts s) := by
  simp [exec, execSetup, hs, hc]

/-- A SETUP that aborts in Idle stays there, with CONFIG_ERR as the only flag (R251, R271). -/
theorem setupAborts_of_idle {s : State} (hs : s.st = .idle) :
    setupAborts s =
      { s with sub := 0, status := 0b1000#4, functional := false, trace := s.trace ++ [.err .configuration] } := by
  simp [setupAborts, goto, raise, emit, setStatus_configuration, hs]

/-- FORCE_FULL in Idle (R253). -/
theorem exec_forceFull_of_idle {s : State} (hs : s.st = .idle) : exec .forceFull s = .next { s with counter := 0 } := by
  simp [exec, execForceFull, hs]

/-- Settles O19: `setupStarts` is R251's accepting step, written out; `setupAborts` is its failing one. -/
theorem setupAcceptanceStep : Obligations.SetupAcceptanceStep := by
  refine fun s hs => ⟨exec_setup_of_configOk hs, fun hc => ?aborts⟩
  rw [exec_setup_of_not_configOk hs hc, setupAborts_of_idle hs]

/-- FORCE_FULL comes first in the list: what follows it runs with COUNTER at 0 (R253). -/
theorem runInstrs_forceFull_cons {s : State} (hs : s.st = .idle) (rest : List Instr) :
    runInstrs (.forceFull :: rest) s = runInstrs rest { s with counter := 0 } := by
  rw [runInstrs, exec_forceFull_of_idle hs, andThen_next]

/-- An UPDATE that starts with COUNTER at 0 is a Full one (R140). -/
theorem updateStarts_mode_of_counter_zero {s : State} (h : s.counter = 0) : (updateStarts s).mode = .full :=
  modeSel_eq_full_iff.2 (by simp [h])

/-- Settles O22: FORCE_FULL leaves the block in Idle, where the next operation is accepted with COUNTER at 0. -/
theorem forceFullZeroesTheCounter : Obligations.ForceFullZeroesTheCounter := by
  refine fun s hs => ⟨exec_forceFull_of_idle hs, ?twice, fun hf hc => ?thenUpdate⟩
  case twice =>
    rw [runInstrs_forceFull_cons hs, runInstrs_singleton, exec_forceFull_of_idle hs]
    exact exec_forceFull_of_idle hs
  case thenUpdate =>
    refine ⟨updateStarts { s with counter := 0 }, ?_, updateStarts_mode_of_counter_zero rfl, rfl, rfl, fun hi => ?_⟩
    · rw [runInstrs_forceFull_cons hs, runInstrs_singleton]
      exact exec_update_of_functional hs hf hc
    · rw [updateStarts_st, if_pos hi]

/-! ### CONFIG_OK -/

/-- The variants that CONFIG_OK admits are `a` and `b` (R255, log entry 35). -/
theorem bvv_ne_other_iff {v : BorderVariant} : v ≠ .other ↔ v = .a ∨ v = .b := by
  cases v <;> decide

/-- The conjuncts of CONFIG_OK on parameters (R255). -/
theorem paramsOk_iff {c : Config} : c.paramsOk = true ↔
    c.geometryOk = true ∧ 1 ≤ c.otpBank0Start ∧ 1 ≤ c.otpBank1Start ∧ c.otpBank0Start < 65536 ∧
      c.otpBank1Start < 65536 ∧ c.bvv ≠ .other ∧ c.pinsPresent = true := by
  simp only [Config.paramsOk, Bool.and_eq_true, decide_eq_true_eq, and_assoc]

/-- A sampled FULL_UPDATE_EVERY is at least 1 when it is not 0 (R255). -/
theorem one_le_toNat_iff {f : Word} : 1 ≤ f.toNat ↔ f ≠ 0 :=
  Nat.one_le_iff_ne_zero.trans (BitVec.toNat_ne_iff_ne (y := 0))

/-- Settles O20: the conjunct on FUE stands second in the rule, and last in `configOk`. -/
theorem configOkIsItsConjuncts : Obligations.ConfigOkIsItsConjuncts := fun c f => by
  rw [configOk_iff, paramsOk_iff, geometryOk_iff, bvv_ne_other_iff, ← one_le_toNat_iff]
  exact and_right_comm.trans and_assoc

end Sys2Proof.Machine

/-! PROOFS. Family 70_reset_and_hazards: what block reset leaves (R301). -/

namespace Sys2Proof.Machine

/-- After block reset the block is in Idle, so READY is 1 (R29, R301). -/
theorem ready_blockReset (u : Unspecified) (s : State) : ready (blockReset u s) = true :=
  decide_eq_true rfl

/-- After block reset FUNCTIONAL is 0, so UPDATE has no effect (R252, R301). -/
theorem exec_update_blockReset (u : Unspecified) (s : State) :
    exec .update (blockReset u s) = .next (blockReset u s) :=
  exec_update_of_not_functional rfl rfl

/-- FORCE_FULL writes COUNTER only, which block reset leaves at the 0 that it writes (R253, R301). -/
theorem exec_forceFull_blockReset (u : Unspecified) (s : State) :
    exec .forceFull (blockReset u s) = .next (blockReset u s) :=
  exec_forceFull_of_idle rfl

/-- What block reset leaves unspecified, at the zeros that `State.reset` holds there (log entries 4 and 5). -/
def Unspecified.zero : Unspecified := ⟨0, ⟨0, 0⟩, 0, 0, [], []⟩

/-- `State.reset` is the block reset of a block that held it. -/
theorem reset_eq_blockReset : State.reset = blockReset .zero State.reset := rfl

/-- Settles O44: the registers and ports as R301 lists them, the host operations by their rules in Idle. -/
theorem blockResetValues : Obligations.BlockResetValues :=
  ⟨fun u s => ⟨blockReset u s, rfl, rfl, rfl, rfl, rfl, rfl, rfl, rfl, rfl, rfl, rfl, rfl, rfl, rfl, rfl, rfl, rfl,
    ready_blockReset u s, exec_update_blockReset u s, exec_forceFull_blockReset u s⟩, .zero, reset_eq_blockReset⟩

end Sys2Proof.Machine
